-- ==== Sys2Proof/Word.lean ====
section
/-! DEFINITION. The word of the ZA816's ports and link, the revolution count, and the local heads. -/

namespace Sys2Proof

/-- A word of the Capture Port, the Feed-Forward Port or the Bench Link (00, "Words"). -/
abbrev Word := BitVec 16

/-- A revolution count or a stamp: it runs 0..65535 and wraps to 0 (R2). -/
abbrev Rev := BitVec 16

/-- A local head 0..7 of the unit (R3). -/
abbrev Head := Fin 8

end Sys2Proof
end

