-- ==== Sys2Proof/Syntax.lean ====
section
/-! DEFINITION. The steps of the ZA816: one constructor of `Instr` for each row of spec/opcode_table.json, and the
commands of the Bench Link by name. -/

namespace Sys2Proof

/-- How a memory test ends (R197). -/
inductive MemoryResult where
  /-- no fault: own code 01h -/
  | pass
  /-- a fault in the map memory: own code 02h -/
  | mapFault
  /-- a fault in the queue memory: own code 03h -/
  | queueFault
deriving DecidableEq, Repr

/-- The commands of the Bench Link (12.5). -/
inductive CmdCode where
  | null | selectUnit | selfTest | unitReset | haltStream
  | setGeometry | fill | setWindow | setAccessOrder | writeMap | writeMapContinue | readMapItem | streamMap
  | publishNow | enqueueRun | cancelQueued | haltRun | takeResult | feedForwardOn | feedForwardOff
  | excludeWedge | includeWedge | clearExclusions | readExclusions | setPermissions | readPermissions
  | readMonitor | readCaptureCounts | readIdentity | readSettings
  | setSetting | setHeadGain | setHeadOptions | clearEvents | setEventEnables
deriving DecidableEq, Repr

/-- The steps of the part, row by row of spec/opcode_table.json, with their operands. A Bench Link command carries its
parameter words in the order of 12.5. -/
inductive Instr where
  /-- CAPTURE_WORD: the frame start line and the word (R45). -/
  | captureWord (frameStart : Bool) (w : Word)
  /-- INDEX_EVENT (R56). -/
  | indexEvent
  /-- INDEX_TIMER_EXPIRY (R60). -/
  | indexTimerExpiry
  /-- RUN_START (R87 to R91). -/
  | runStart
  /-- LEARNING_TAKE_RECORD (R29). -/
  | learningTakeRecord
  /-- LEARNING_OPERATION (R62). -/
  | learningOperation
  /-- AUTO_EXCLUSION (R149). -/
  | autoExclusion
  /-- FF_REQUEST: the request word (R123, R125). -/
  | ffRequest (w : Word)
  /-- FF_OPERATION (R129). -/
  | ffOperation
  /-- FF_REPLY_STROBE: whether the other unit of the pair holds Reply Ready (R126, R127; log 3). -/
  | ffReplyStrobe (otherReady : Bool)
  /-- SWEEP_STEP (R24). -/
  | sweepStep
  /-- POWER_ON_RESET: the level of the Unit strap (R196; log 7). -/
  | powerOnReset (strap : Bool)
  /-- MEMORY_TEST_END: what the test found (R197). -/
  | memoryTestEnd (result : MemoryResult)
  /-- SECONDARY_PRESENT_ASSERT (R199). -/
  | secondaryPresentAssert
  /-- PRESENT_SEEN (R200). -/
  | presentSeen
  /-- PRESENCE_WINDOW_EXPIRY (R200). -/
  | presenceWindowExpiry
  /-- PASSED_SEEN (R200). -/
  | passedSeen
  /-- PAIR_WAIT_EXPIRY (R200). -/
  | pairWaitExpiry
  /-- RETURN_QUEUE_READ: a read strobe with select 0 (R179). -/
  | returnQueueRead
  /-- STREAM_MAP_ITEM_READ (R172). -/
  | streamMapItemRead
  /-- STATUS_READ_ACKNOWLEDGE: a read strobe with select 1 (R183). -/
  | statusReadAcknowledge
  /-- BENCH_PARAMETER_WORD: one write strobe, with its select lines (R178, R180; log 4). -/
  | benchParameterWord (select : BitVec 2) (w : Word)
  /-- MAP_DATA_WORD: a data word of a Write Map (R165). -/
  | mapDataWord (w : Word)
  /-- UNKNOWN_COMMAND: a command word that names no command (R180). -/
  | unknownCommand (w : Word)
  /-- NULL (R193). -/
  | null
  /-- SELECT_UNIT (R187). -/
  | selectUnit (unit : Word)
  /-- SELF_TEST: the level of the Unit strap it reads (R202, R196; log 7). -/
  | selfTest (strap : Bool)
  /-- UNIT_RESET (R194). -/
  | unitReset
  /-- HALT_STREAM (R173). -/
  | haltStream
  /-- SET_GEOMETRY (R18). -/
  | setGeometry (heads wedges : Word)
  /-- FILL (R27). -/
  | fill (value state : Word)
  /-- SET_WINDOW (R159). -/
  | setWindow (firstHead lastHead firstWedge lastWedge : Word)
  /-- SET_ACCESS_ORDER (R160). -/
  | setAccessOrder (major direction view : Word)
  /-- WRITE_MAP (R167). -/
  | writeMap
  /-- WRITE_MAP_CONTINUE (R168). -/
  | writeMapContinue
  /-- READ_MAP_ITEM (R170). -/
  | readMapItem
  /-- STREAM_MAP (R172). -/
  | streamMap (count : Word)
  /-- PUBLISH_NOW (R80). -/
  | publishNow (heads : Word)
  /-- ENQUEUE_RUN: its seven descriptor words (R84). -/
  | enqueueRun (w1 w2 w3 w4 w5 w6 w7 : Word)
  /-- CANCEL_QUEUED (R86). -/
  | cancelQueued (tag : Word)
  /-- HALT_RUN (R100). -/
  | haltRun
  /-- TAKE_RESULT (R108). -/
  | takeResult
  /-- FEED_FORWARD_ON (R139). -/
  | feedForwardOn
  /-- FEED_FORWARD_OFF (R140). -/
  | feedForwardOff
  /-- EXCLUDE (R144). -/
  | excludeWedge (head wedge : Word)
  /-- INCLUDE (R146). -/
  | includeWedge (head wedge : Word)
  /-- CLEAR_EXCLUSIONS (R147). -/
  | clearExclusions (heads : Word)
  /-- READ_EXCLUSIONS (R148). -/
  | readExclusions
  /-- SET_PERMISSIONS (R154). -/
  | setPermissions (writer heads fields : Word)
  /-- READ_PERMISSIONS (R155). -/
  | readPermissions
  /-- READ_MONITOR (R44). -/
  | readMonitor (head : Word)
  /-- READ_CAPTURE_COUNTS (R55). -/
  | readCaptureCounts
  /-- READ_IDENTITY (R189). -/
  | readIdentity
  /-- READ_SETTINGS (R190). -/
  | readSettings
  /-- SET_SETTING (R191). -/
  | setSetting (selector value : Word)
  /-- SET_HEAD_GAIN (R192). -/
  | setHeadGain (head gain : Word)
  /-- SET_HEAD_OPTIONS (R192). -/
  | setHeadOptions (head lead polarity split : Word)
  /-- CLEAR_EVENTS (R185). -/
  | clearEvents (kinds : Word)
  /-- SET_EVENT_ENABLES (R185). -/
  | setEventEnables (kinds : Word)
  /-- PRESENT_RELEASE (R199). -/
  | presentRelease
deriving DecidableEq, Repr

end Sys2Proof
end

