-- ==== Sys2Proof/Decode.lean ====
section
/-! DEFINITION. The code table of the Bench Link's command words (12.5), and the host's decoder of the opcode table's own
bits, of which the table gives none. -/

namespace Sys2Proof

/-- The command a command word names: its code is in bits 7..0, and bits 15..8 are unused (12.5). -/
def CmdCode.ofWord (w : Word) : Option CmdCode :=
  match w.toNat % 256 with
  | 0x00 => some .null
  | 0x01 => some .selectUnit
  | 0x02 => some .selfTest
  | 0x03 => some .unitReset
  | 0x04 => some .haltStream
  | 0x08 => some .setGeometry
  | 0x09 => some .fill
  | 0x0A => some .setWindow
  | 0x0B => some .setAccessOrder
  | 0x0C => some .writeMap
  | 0x0D => some .writeMapContinue
  | 0x0E => some .readMapItem
  | 0x0F => some .streamMap
  | 0x10 => some .publishNow
  | 0x11 => some .enqueueRun
  | 0x12 => some .cancelQueued
  | 0x13 => some .haltRun
  | 0x14 => some .takeResult
  | 0x15 => some .feedForwardOn
  | 0x16 => some .feedForwardOff
  | 0x18 => some .excludeWedge
  | 0x19 => some .includeWedge
  | 0x1A => some .clearExclusions
  | 0x1B => some .readExclusions
  | 0x1C => some .setPermissions
  | 0x1D => some .readPermissions
  | 0x20 => some .readMonitor
  | 0x21 => some .readCaptureCounts
  | 0x22 => some .readIdentity
  | 0x23 => some .readSettings
  | 0x24 => some .setSetting
  | 0x25 => some .setHeadGain
  | 0x26 => some .setHeadOptions
  | 0x28 => some .clearEvents
  | 0x29 => some .setEventEnables
  | _ => none

/-- The code of a command (12.5). -/
def CmdCode.code : CmdCode → Word
  | .null => 0x00
  | .selectUnit => 0x01
  | .selfTest => 0x02
  | .unitReset => 0x03
  | .haltStream => 0x04
  | .setGeometry => 0x08
  | .fill => 0x09
  | .setWindow => 0x0A
  | .setAccessOrder => 0x0B
  | .writeMap => 0x0C
  | .writeMapContinue => 0x0D
  | .readMapItem => 0x0E
  | .streamMap => 0x0F
  | .publishNow => 0x10
  | .enqueueRun => 0x11
  | .cancelQueued => 0x12
  | .haltRun => 0x13
  | .takeResult => 0x14
  | .feedForwardOn => 0x15
  | .feedForwardOff => 0x16
  | .excludeWedge => 0x18
  | .includeWedge => 0x19
  | .clearExclusions => 0x1A
  | .readExclusions => 0x1B
  | .setPermissions => 0x1C
  | .readPermissions => 0x1D
  | .readMonitor => 0x20
  | .readCaptureCounts => 0x21
  | .readIdentity => 0x22
  | .readSettings => 0x23
  | .setSetting => 0x24
  | .setHeadGain => 0x25
  | .setHeadOptions => 0x26
  | .clearEvents => 0x28
  | .setEventEnables => 0x29

/-- The number of parameter words of a command (12.5). -/
def CmdCode.paramCount : CmdCode → Nat
  | .selectUnit | .streamMap | .publishNow | .cancelQueued | .clearExclusions | .readMonitor
  | .clearEvents | .setEventEnables => 1
  | .setGeometry | .fill | .excludeWedge | .includeWedge | .setSetting | .setHeadGain => 2
  | .setAccessOrder | .setPermissions => 3
  | .setWindow | .setHeadOptions => 4
  | .enqueueRun => 7
  | .null | .selfTest | .unitReset | .haltStream | .writeMap | .writeMapContinue | .readMapItem
  | .haltRun | .takeResult | .feedForwardOn | .feedForwardOff | .readExclusions | .readPermissions
  | .readCaptureCounts | .readIdentity | .readSettings => 0

/-- The words a Bench Link command is written as, its command word first (12.5); none for a step that is no
command. -/
def Instr.linkWords : Instr → Option (CmdCode × List Word)
  | .null => some (.null, [])
  | .selectUnit u => some (.selectUnit, [u])
  | .selfTest _ => some (.selfTest, [])
  | .unitReset => some (.unitReset, [])
  | .haltStream => some (.haltStream, [])
  | .setGeometry h w => some (.setGeometry, [h, w])
  | .fill v st => some (.fill, [v, st])
  | .setWindow a b c d => some (.setWindow, [a, b, c, d])
  | .setAccessOrder a b c => some (.setAccessOrder, [a, b, c])
  | .writeMap => some (.writeMap, [])
  | .writeMapContinue => some (.writeMapContinue, [])
  | .readMapItem => some (.readMapItem, [])
  | .streamMap n => some (.streamMap, [n])
  | .publishNow h => some (.publishNow, [h])
  | .enqueueRun a b c d e f g => some (.enqueueRun, [a, b, c, d, e, f, g])
  | .cancelQueued t => some (.cancelQueued, [t])
  | .haltRun => some (.haltRun, [])
  | .takeResult => some (.takeResult, [])
  | .feedForwardOn => some (.feedForwardOn, [])
  | .feedForwardOff => some (.feedForwardOff, [])
  | .excludeWedge h w => some (.excludeWedge, [h, w])
  | .includeWedge h w => some (.includeWedge, [h, w])
  | .clearExclusions h => some (.clearExclusions, [h])
  | .readExclusions => some (.readExclusions, [])
  | .setPermissions a b c => some (.setPermissions, [a, b, c])
  | .readPermissions => some (.readPermissions, [])
  | .readMonitor h => some (.readMonitor, [h])
  | .readCaptureCounts => some (.readCaptureCounts, [])
  | .readIdentity => some (.readIdentity, [])
  | .readSettings => some (.readSettings, [])
  | .setSetting a b => some (.setSetting, [a, b])
  | .setHeadGain a b => some (.setHeadGain, [a, b])
  | .setHeadOptions a b c d => some (.setHeadOptions, [a, b, c, d])
  | .clearEvents m => some (.clearEvents, [m])
  | .setEventEnables m => some (.setEventEnables, [m])
  | .captureWord _ _ | .indexEvent | .indexTimerExpiry | .runStart | .learningTakeRecord
  | .learningOperation | .autoExclusion | .ffRequest _ | .ffOperation | .ffReplyStrobe _ | .sweepStep
  | .powerOnReset _ | .memoryTestEnd _ | .secondaryPresentAssert | .presentSeen
  | .presenceWindowExpiry | .passedSeen | .pairWaitExpiry | .returnQueueRead | .streamMapItemRead
  | .statusReadAcknowledge | .benchParameterWord _ _ | .mapDataWord _ | .unknownCommand _
  | .presentRelease => none

/-- Whether a step is a write of the Bench Link: a command, or one write strobe (R178). -/
def Instr.onLink (i : Instr) : Bool :=
  match i with
  | .benchParameterWord _ _ | .mapDataWord _ | .unknownCommand _ => true
  | _ => i.linkWords.isSome

/-- The command that a word spells by spec/opcode_table.json's own bits. The table gives no row any bits, so no word
spells a row. -/
def decodeTableWord (_nbits _w : Nat) : Option Instr := none

end Sys2Proof
end

