-- ==== Sys2Proof/Config.lean ====
section
/-! DEFINITION. The fixed sizes and identity values of the part. The spec leaves no value of the part open, so there is
no free value here. -/

namespace Sys2Proof.Config

/-- Wedges of the grid for each head (R5). -/
def gridWedges : Nat := 512

/-- Capacity of the Capture FIFO (R52). -/
def fifoDepth : Nat := 16

/-- Capacity of the Run Queue (R85). -/
def runQueueDepth : Nat := 8

/-- Capacity of the Result Queue (R105). -/
def resultQueueDepth : Nat := 8

/-- Capacity of the Return Queue (R171). -/
def returnQueueDepth : Nat := 4

/-- Capacity of the Exclusion Table (R143). -/
def exclusionDepth : Nat := 32

/-- The part code of Read Identity (R189). -/
def partCode : Word := 0x0816

/-- The revision of Read Identity, for the parts the document describes (R189). -/
def revision : Word := 1

end Sys2Proof.Config
end

