-- ==== Sys2Proof/Machine/Containers.lean ====
section
/-! DEFINITION. The two shapes the state is built from: one value for each of heads 0..7, and a sparse table of values by
number in one canonical form. -/

namespace Sys2Proof.Machine

/-- One value for each local head 0..7. -/
structure PerHead (α : Type) where
  h0 : α
  h1 : α
  h2 : α
  h3 : α
  h4 : α
  h5 : α
  h6 : α
  h7 : α
deriving DecidableEq, Repr

/-- The value of one head. -/
def PerHead.get {α : Type} (t : PerHead α) (h : Head) : α :=
  match h.val with
  | 0 => t.h0
  | 1 => t.h1
  | 2 => t.h2
  | 3 => t.h3
  | 4 => t.h4
  | 5 => t.h5
  | 6 => t.h6
  | _ => t.h7

/-- The table of a function of the head. -/
def PerHead.ofFn {α : Type} (f : Head → α) : PerHead α :=
  ⟨f 0, f 1, f 2, f 3, f 4, f 5, f 6, f 7⟩

/-- The same value for every head. -/
def PerHead.all {α : Type} (a : α) : PerHead α := ⟨a, a, a, a, a, a, a, a⟩

/-- The table with the value of one head replaced. -/
def PerHead.set {α : Type} (t : PerHead α) (h : Head) (a : α) : PerHead α :=
  match h.val with
  | 0 => { t with h0 := a }
  | 1 => { t with h1 := a }
  | 2 => { t with h2 := a }
  | 3 => { t with h3 := a }
  | 4 => { t with h4 := a }
  | 5 => { t with h5 := a }
  | 6 => { t with h6 := a }
  | _ => { t with h7 := a }

/-- The table with the value of one head changed by a function. -/
def PerHead.modify {α : Type} (t : PerHead α) (h : Head) (f : α → α) : PerHead α :=
  t.set h (f (t.get h))

/-- The heads 0..7 in ascending order. -/
def allHeads : List Head := [0, 1, 2, 3, 4, 5, 6, 7]

/-- A head set: a subset of local heads 0..7 (00, "Head sets"). -/
abbrev HeadSet := PerHead Bool

/-- The heads of a set in ascending order. -/
def HeadSet.toList (hs : HeadSet) : List Head := allHeads.filter hs.get

/-- A table by number, as a list of pairs: numbers strictly rising, and no entry equal to the value an unlisted number
reads as. -/
abbrev Sparse (α : Type) := List (Nat × α)

/-- The value at a number; `d` where the table lists none. -/
def Sparse.get {α : Type} (d : α) : Sparse α → Nat → α
  | [], _ => d
  | (k', v) :: r, k => if k' = k then v else Sparse.get d r k

/-- The table with the value at one number replaced; writing `d` removes the entry. -/
def Sparse.set {α : Type} [DecidableEq α] (d : α) : Sparse α → Nat → α → Sparse α
  | [], k, v => if v = d then [] else [(k, v)]
  | (k', v') :: r, k, v =>
    if k < k' then (if v = d then (k', v') :: r else (k, v) :: (k', v') :: r)
    else if k = k' then (if v = d then r else (k, v) :: r)
    else (k', v') :: Sparse.set d r k v

/-- The table over the numbers below `n` with every value changed by a function of its number. -/
def Sparse.update {α : Type} [DecidableEq α] (d : α) (n : Nat) (f : Nat → α → α) (t : Sparse α) : Sparse α :=
  (List.range n).filterMap fun k =>
    if f k (Sparse.get d t k) = d then none else some (k, f k (Sparse.get d t k))

/-- Whether a table is in canonical form over the numbers below `n`. -/
def Sparse.wf {α : Type} [DecidableEq α] (d : α) (n : Nat) (t : Sparse α) : Bool :=
  decide (t.Pairwise fun a b => a.1 < b.1) && t.all fun p => decide (p.1 < n) && decide (p.2 ≠ d)

end Sys2Proof.Machine
end

