-- ==== Sys2Proof/Machine/State.lean ====
section
/-! DEFINITION. Everything the spec gives one ZA816 unit, as plain data, and the machine at the end of power-on reset. -/

namespace Sys2Proof.Machine

/-- Cell states (00, "Cell states"). -/
inductive CellState where
  | empty | loaded | learning | converged | suspect | excluded
deriving DecidableEq, Repr

/-- The Cell record (R5). The defaults are its power-on values (R12). -/
structure Cell where
  working : Int := 0
  published : Int := 0
  state : CellState := .empty
  outliers : Nat := 0
  sum : Int := 0
  count : Nat := 0
  dirty : Bool := false
  effRev : Rev := 0
  lastStamp : Option Rev := none
deriving DecidableEq, Repr

/-- The power-on cell: what a wedge that a row of the map does not list reads as (R12). -/
def Cell.blank : Cell := {}

/-- The monitor of a head (R39). -/
structure Monitor where
  pes : Int
  wedge : Nat
  stamp : Rev
deriving DecidableEq, Repr

/-- The Head Profile record (R13). The defaults are its power-on values. -/
structure Profile where
  gain : Nat := 16384
  pendingGain : Option Nat := none
  lead : Nat := 1
  /-- polarity Inverted -/
  inverted : Bool := false
  offsetSplit : Bool := false
  /-- the published offset O -/
  offset : Int := 0
  importFault : Bool := false
  publishPending : Bool := false
  autoPublish : Bool := false
  monitor : Option Monitor := none
deriving DecidableEq, Repr

/-- A head that an index found due and whose publication is still to come (R74): the number the index carries, whether the
publish pending mark was set when the index arrived, and whether the pending gain that was present then, if any, has not been
replaced since (R75, R77). -/
structure DueHead where
  head : Head
  rev : Rev
  marked : Bool
  gainFound : Bool
deriving DecidableEq, Repr

/-- The unit settings with their power-on values (00, "Unit settings"; R191; R141). -/
structure Settings where
  headsInstalled : Nat := 8
  wedges : Nat := 256
  depth : Nat := 8
  learnGain : Nat := 4
  threshold : Nat := 8
  outlierLimit : Nat := 384
  suspectCount : Nat := 4
  cmax : Nat := 1024
  amin : Nat := 256
  retryLimit : Nat := 1
  indexTimeout : Nat := 100
  feedForward : Bool := false
deriving DecidableEq, Repr

/-- The kinds of sweep (01, section 1.7). A Fill carries its value, already clamped, and the state it writes: Loaded, or
Empty (R27). -/
inductive SweepKind where
  | fill (value : Int) (loaded : Bool)
  | geometry
  | selfTest
  | powerOn
deriving DecidableEq, Repr

/-- The sweep in flight: its kind, its range and the next cell it will write (01, section 1.7). -/
structure Sweep where
  kind : SweepKind
  firstHead : Head
  lastHead : Head
  firstWedge : Nat
  lastWedge : Nat
  nextHead : Head
  nextWedge : Nat
deriving DecidableEq, Repr

/-- A capture record (R29, R51). -/
structure Record where
  head : Head
  wedge : Nat
  track : Word
  a : Nat
  b : Nat
  c : Nat
  d : Nat
  stamp : Rev
deriving DecidableEq, Repr

/-- The Capture Port (R45, R46, R49, R52, R53). `frame` holds the words received of the frame in assembly, oldest first;
with none the assembly is Idle. -/
structure Capture where
  frame : List Word := []
  fifo : List Record := []
  malformed : Nat := 0
  unconfigured : Nat := 0
  outOfRange : Nat := 0
  overrun : Nat := 0
deriving DecidableEq, Repr

/-- The Index Unit: the revolution count (R56) and the index timer (R59), Stopped or Running with the index timeout in
milliseconds that it was last started with. -/
structure IndexUnit where
  rev : Rev := 0
  timer : Option Nat := none
deriving DecidableEq, Repr

/-- The record the Learning Engine holds for admission (R41), with the serial of the run it was handed on in (R42; log
12). -/
structure HeldRecord where
  head : Head
  wedge : Nat
  track : Word
  stamp : Rev
  e : Int
  run : Nat
deriving DecidableEq, Repr

/-- The kinds of run (R83). -/
inductive RunKind where
  | learn | verify | gain
deriving DecidableEq, Repr

/-- A run descriptor (R83). -/
structure Descriptor where
  tag : Nat
  kind : RunKind
  heads : HeadSet
  track : Word
  settle : Nat
  budget : Nat
  noRetry : Bool
  autoExclude : Bool
  resetCells : Bool
  step : Nat
  phaseRevs : Nat
deriving DecidableEq, Repr

/-- The phases of an active run (R92, R110). -/
inductive Phase where
  | settle | collect | plusSettle | plusCollect | minusSettle | minusCollect
deriving DecidableEq, Repr

/-- The twelve causes of discard that a run totals, in the order of the result (R106). -/
inductive Discard where
  | idInvalid | saturated | weak | inconsistent | offTrack | early | stale | duplicate | outlier
  | suspect | excluded | overrun
deriving DecidableEq, Repr

/-- The twelve unit-wide discard totals of a run (R106). -/
structure Totals where
  idInvalid : Nat := 0
  saturated : Nat := 0
  weak : Nat := 0
  inconsistent : Nat := 0
  offTrack : Nat := 0
  early : Nat := 0
  stale : Nat := 0
  duplicate : Nat := 0
  outlier : Nat := 0
  suspect : Nat := 0
  excluded : Nat := 0
  overrun : Nat := 0
deriving DecidableEq, Repr

/-- The verdict mark of a cell in a run (R89, R97). -/
inductive Verdict where
  | unmeasured | converged | learning
deriving DecidableEq, Repr

/-- The injection of the active run (R112). -/
inductive Injection where
  | off | plus | minus
deriving DecidableEq, Repr

/-- The phase sums and counts of one head of a GAIN run (R115). -/
structure PhaseSums where
  plusSum : Int := 0
  plusCount : Nat := 0
  minusSum : Int := 0
  minusCount : Nat := 0
deriving DecidableEq, Repr

/-- The active run context (R89, R112, R115). -/
structure RunCtx where
  desc : Descriptor
  /-- the run's heads (R88) -/
  heads : HeadSet
  /-- the skipped heads (R88) -/
  skipped : HeadSet
  depth : Nat
  phase : Phase
  settleCounter : Nat
  collectStart : Option Rev := none
  phaseRevs : Nat := 0
  collectRevs : Nat := 0
  retries : Nat := 0
  totals : Totals := {}
  peaks : PerHead Nat := PerHead.all 0
  verdicts : PerHead (Sparse Verdict) := PerHead.all []
  sums : PerHead PhaseSums := PerHead.all {}
  injection : Injection := .off
  /-- the serial of this run: the model's own (log 12) -/
  serial : Nat
deriving DecidableEq, Repr

/-- The outcomes of a run (R98). -/
inductive RunOutcome where
  | complete | exhausted | aborted | faulted
deriving DecidableEq, Repr

/-- The causes of a run's outcome (R98). -/
inductive RunCause where
  | none | haltRun | feedForwardOff | selfTest | spindleLost | noHeads
deriving DecidableEq, Repr

/-- The gain part of a result's head entry (R107, R117). -/
inductive GainResult where
  | none | gain (g : Nat) | insufficient | nonPositiveStep | gainRange
deriving DecidableEq, Repr

/-- A head entry of a result (R107). -/
structure HeadEntry where
  head : Head
  skipped : Bool
  excluded : Nat := 0
  suspect : Nat := 0
  unmeasured : Nat := 0
  converged : Nat := 0
  learning : Nat := 0
  peak : Nat := 0
  offset : Int := 0
  gain : GainResult := .none
deriving DecidableEq, Repr

/-- A result record (R106, R107). -/
structure RunResult where
  tag : Nat
  kind : RunKind
  outcome : RunOutcome
  cause : RunCause
  collectRevs : Nat
  retries : Nat
  totals : Totals
  entries : List HeadEntry
deriving DecidableEq, Repr

/-- The Run Controller (05): the Run Queue oldest first, the active run, the Result Queue oldest first, and the number of
runs started so far, which is the model's own (log 12). -/
structure RunController where
  queue : List Descriptor := []
  active : Option RunCtx := none
  results : List RunResult := []
  serial : Nat := 0
deriving DecidableEq, Repr

/-- A feed-forward request in service (R123, R125): the local head, the wedge it names, and the Replaced flag its reply
will carry. -/
structure FFRequest where
  head : Head
  wedge : Nat
  replaced : Bool
deriving DecidableEq, Repr

/-- The reason codes of a reply (12.4). -/
inductive Reason where
  | normal | interpolated | hold | notReady | unconfigured | outOfRange
deriving DecidableEq, Repr

/-- A formed reply (R126, R128). -/
structure FFReply where
  value : Int
  reason : Reason
  offset : Int
  replaced : Bool
  injecting : Bool
deriving DecidableEq, Repr

/-- The state of the Feed-Forward Server (R124). While Forming, its claim waits at the Map Arbiter; while Replying, one
word of the reply may have been taken. -/
inductive FFState where
  | idle
  | forming (req : FFRequest)
  | replying (reply : FFReply) (oneTaken : Bool)
deriving DecidableEq, Repr

/-- The Feed-Forward Server and its port (R124, R127). -/
structure FFServer where
  server : FFState := .idle
  portMark : Bool := false
  /-- reply words taken on the port since the last request (R127) -/
  wordsTaken : Nat := 0
  /-- what the port showed at the last reply strobe: the word this unit drove, or 0 where no unit held a reply (R126); none
  where the other unit drove it (log 11) -/
  out : Option Word := none
deriving DecidableEq, Repr

/-- The two permissions of one writer for one head (R152): WC and CS. -/
structure Permission where
  wc : Bool := true
  cs : Bool := true
deriving DecidableEq, Repr

/-- The Permission Table (R152). -/
structure Permissions where
  bench : PerHead Permission := PerHead.all {}
  learning : PerHead Permission := PerHead.all {}
  sweep : PerHead Permission := PerHead.all {}
deriving DecidableEq, Repr

/-- The outcomes of a command (R181). -/
inductive Outcome where
  | accepted | busy | badParameter | queueFull | tableFull | notFound | streaming | notReady
  | noResult | incomplete
deriving DecidableEq, Repr

/-- The ten event kinds (R184), in the order of their bits (12.5). -/
inductive Kind where
  | runEnded | revolution | captureOverrun | returnLost | commandRefused | importMismatch
  | exclusionFull | spindleLost | pairFault | startupDone
deriving DecidableEq, Repr

/-- A set of event kinds (R184). -/
structure Kinds where
  runEnded : Bool := false
  revolution : Bool := false
  captureOverrun : Bool := false
  returnLost : Bool := false
  commandRefused : Bool := false
  importMismatch : Bool := false
  exclusionFull : Bool := false
  spindleLost : Bool := false
  pairFault : Bool := false
  startupDone : Bool := false
deriving DecidableEq, Repr

/-- The access window (R159). -/
structure Window where
  firstHead : Head := 0
  lastHead : Head := 7
  firstWedge : Nat := 0
  lastWedge : Nat := 255
deriving DecidableEq, Repr

/-- The access order and the view (R160). -/
structure Order where
  headMajor : Bool := false
  descending : Bool := false
  /-- Packed view; Record view when false -/
  packed : Bool := true
deriving DecidableEq, Repr

/-- The pointer at an item (R161). -/
structure Pointer where
  head : Head := 0
  wedge : Nat := 0
  pos : Nat := 0
deriving DecidableEq, Repr

/-- How far a whole-head import has come (R176): data words still to come with the CRC register over those received; the
low CRC word awaited; the high CRC word awaited; judged. -/
inductive ImportStage where
  | data (left : Nat) (crc : BitVec 32)
  | crcLow (crc : BitVec 32)
  | crcHigh (crc : BitVec 32) (low : Word)
  | judged
deriving DecidableEq, Repr

/-- A whole-head import in progress (R176). -/
structure Import where
  head : Head
  stage : ImportStage
deriving DecidableEq, Repr

/-- The command assembly (R180). -/
inductive Assembly where
  | idle
  | assembling (code : CmdCode) (params : List Word)
  | takingData (imp : Option Import)
deriving DecidableEq, Repr

/-- What a stream is (R171, R172, R175, R108): a copy of words; the oldest result; or a Stream Map, with the items still to
be read (none: to the end of the window) and, for a whole-head export, the CRC register. -/
inductive StreamKind where
  | copy
  | result
  | map (left : Option Nat) (crc : Option (BitVec 32))
deriving DecidableEq, Repr

/-- The stream in progress: its kind and the words of its copy still to be placed (R171). -/
structure Stream where
  kind : StreamKind
  words : List Word
deriving DecidableEq, Repr

/-- The Bench Link (10, 09). -/
structure BenchLink where
  assembly : Assembly := .idle
  returnQueue : List Word := []
  window : Window := {}
  order : Order := {}
  /-- the pointer; none is past the end of the window -/
  pointer : Option Pointer := some {}
  stream : Option Stream := none
  lastOutcome : Outcome := .accepted
  flags : Kinds := {}
  enables : Kinds := {}
  selected : Fin 2 := 0
  /-- the word this unit drove at the last read strobe; none where it drove none (log 11) -/
  out : Option Word := none
deriving DecidableEq, Repr

/-- The unit states (R195). -/
inductive UnitState where
  | starting | ready | failed
deriving DecidableEq, Repr

/-- The phase of the start-up test in flight (R196 to R198): the memory test; the sweep, with what the memory test found;
the sweep ended, with what the memory test found. -/
inductive TestPhase where
  | none
  | memoryTest
  | sweeping (own : MemoryResult)
  | swept (own : MemoryResult)
deriving DecidableEq, Repr

/-- The recorded pair presence (R189). -/
inductive Presence where
  | unknown | present | absent | secondary
deriving DecidableEq, Repr

/-- How the wait for Passed of the test in flight stands (R200). -/
inductive PairVerdict where
  | waiting | passed | failed
deriving DecidableEq, Repr

/-- The Start-up Unit and the pins it reads and drives (11). The defaults are its values at the end of power-on reset, the
first test just begun in a primary (R196). -/
structure Startup where
  unitState : UnitState := .starting
  unitNo : Fin 2 := 0
  /-- the level of the Unit strap pin, true for secondary -/
  strap : Bool := false
  /-- the code of the last test to finish -/
  testCode : Nat := 0
  phase : TestPhase := .memoryTest
  /-- the test in flight is the one of power-on -/
  powerOnTest : Bool := true
  /-- the last memory test to end found a fault (R197) -/
  memoryFault : Bool := false
  presence : Presence := .unknown
  /-- the presence check of the test in flight has recorded nothing yet -/
  checkOpen : Bool := true
  verdict : PairVerdict := .waiting
  /-- the level of the PRES line, as this unit drives it as a secondary or sees it as a primary (log 19) -/
  presLine : Bool := false
  /-- what a secondary drives on the PASS line -/
  passOut : Bool := false
deriving DecidableEq, Repr

/-- The whole unit, and the queue of steps that are waiting, oldest first. The defaults are the values at the end of
power-on reset. -/
structure State where
  map : PerHead (Sparse Cell) := PerHead.all []
  profiles : PerHead Profile := PerHead.all {}
  /-- the due heads of an index whose publications are still to come, in ascending order (R74; log 29) -/
  publishing : List DueHead := []
  settings : Settings := {}
  sweep : Option Sweep := none
  capture : Capture := {}
  index : IndexUnit := {}
  held : Option HeldRecord := none
  autoRequests : List (Head × Nat) := []
  runs : RunController := {}
  ff : FFServer := {}
  exclusions : List (Head × Nat) := []
  perms : Permissions := {}
  bench : BenchLink := {}
  startup : Startup := {}
  /-- how many of the heads it finds due each index to come publishes within its own step, oldest first, and every one where
  none is given: the model's own (log 29) -/
  publishAtOnce : List Nat := []
  /-- which of the waiting auto-exclusions each AUTO_EXCLUSION to come takes, counted from the oldest and past the latest from
  the oldest again, and the oldest where none is given: the model's own (log 13) -/
  autoOrder : List Nat := []
  pending : List Instr := []
deriving DecidableEq, Repr

/-- The part stops in no fault: every step of the spec ends in a state (a refused command, a faulted run and a Failed unit
are states). -/
inductive Fault
deriving DecidableEq, Repr

/-- Why the model gives no meaning. -/
inductive Refusal where
  /-- Raised by `exec`'s arm of a step that has no meaning yet, with the step's mnemonic. Safe: the model stops. -/
  | notModelled (mnemonic : String)
deriving DecidableEq, Repr

/-- The unit at the end of power-on reset, strapped as a primary, with no step waiting (R196; log 7, log 13, log 22,
log 29). -/
def State.reset : State := {}

end Sys2Proof.Machine
end

