-- ==== Sys2Proof/Machine/Arith.lean ====
section
/-! DEFINITION. The part's arithmetic: rounding, clamping, the comparison of stamps, the position error (stages 1 to 3) and
the CRC. -/

namespace Sys2Proof.Machine

/-- `rounded (x / d)`: the quotient rounded half away from zero (R1, R30). -/
def rounded (x : Int) (d : Nat) : Int :=
  let q := x.natAbs / d
  let q' := if d ≤ 2 * (x.natAbs % d) then q + 1 else q
  if x < 0 then -(q' : Int) else (q' : Int)

/-- Clamping a whole number to `lo .. hi` (00, "Clamping"). -/
def clampInt (lo hi x : Int) : Int := max lo (min hi x)

/-- Clamping a natural number to `lo .. hi` (00, "Clamping"). -/
def clampNat (lo hi x : Nat) : Nat := max lo (min hi x)

/-- Clamping a correction to ±Cmax (R7). -/
def clampCorr (cmax : Nat) (x : Int) : Int := clampInt (-(cmax : Int)) cmax x

/-- A count raised by one, saturating at `top`. -/
def satInc (top n : Nat) : Nat := if n < top then n + 1 else n

/-- Whether a stamp is earlier than a revolution: (r − s) mod 65536 lies in 1..32767 (R2). -/
def earlier (s r : Rev) : Bool := decide (1 ≤ (r - s).toNat ∧ (r - s).toNat ≤ 32767)

/-- How stages 1 to 3 end for a record (R29). -/
inductive PesResult where
  | weak
  | inconsistent
  | error (e : Int)
deriving DecidableEq, Repr

/-- The ratio of a burst pair: rounded(512 × (x − y) / (x + y)) (R32, R34). -/
def pairRatio (x y : Nat) : Int := rounded (512 * ((x : Int) - y)) (x + y)

/-- Stage 3: the position scaled by the gain and clamped (R37). -/
def scaleByGain (gain : Nat) (p : Int) : Int := clampInt (-1023) 1023 (rounded (p * gain) 16384)

/-- Stages 1 to 3 on four amplitudes, with Amin and the head's gain as read when the record was taken (R31 to R37). -/
def positionError (amin gain a b c d : Nat) : PesResult :=
  if a + b < amin then .weak
  else if (pairRatio a b).natAbs ≤ 256 then .error (scaleByGain gain (pairRatio a b))
  else if c + d < amin then .weak
  else
    let m : Int := 512 - (pairRatio c d).natAbs
    let p : Int := if 0 < pairRatio a b then m else -m
    if p.natAbs < 192 then .inconsistent else .error (scaleByGain gain p)

/-- The rounded mean of a list of corrections; 0 of none (R76, R107). -/
def meanOf (xs : List Int) : Int :=
  if xs.length = 0 then 0 else rounded xs.sum xs.length

/-- The largest of 2, 4, 8, 16, 32, 64 that does not exceed the value; 2 below 2 (R191). -/
def roundDepth (n : Nat) : Nat :=
  if 64 ≤ n then 64 else if 32 ≤ n then 32 else if 16 ≤ n then 16
  else if 8 ≤ n then 8 else if 4 ≤ n then 4 else 2

/-- One step of the CRC register (R174). -/
def crcStep (r : BitVec 32) : BitVec 32 :=
  if r.getLsbD 0 then (r >>> 1) ^^^ 0xEDB88320#32 else r >>> 1

/-- The CRC register after one byte (R174). -/
def crcByte (r : BitVec 32) (b : BitVec 8) : BitVec 32 :=
  crcStep (crcStep (crcStep (crcStep (crcStep (crcStep (crcStep (crcStep (r ^^^ b.zeroExtend 32))))))))

/-- The CRC register after one word, its low byte first (R174). -/
def crcWord (r : BitVec 32) (w : Word) : BitVec 32 :=
  crcByte (crcByte r (w.extractLsb' 0 8)) (w.extractLsb' 8 8)

/-- The CRC register at its start (R174). -/
def crcStart : BitVec 32 := 0xFFFFFFFF#32

/-- The CRC of a register (R174). -/
def crcFinal (r : BitVec 32) : BitVec 32 := r ^^^ 0xFFFFFFFF#32

/-- The CRC as it travels on the link: its low 16 bits, then its high 16 bits (R174). -/
def crcWords (r : BitVec 32) : List Word := [(crcFinal r).extractLsb' 0 16, (crcFinal r).extractLsb' 16 16]

end Sys2Proof.Machine
end

