-- ==== Sys2Proof/Machine/Operands.lean ====
section
/-! DEFINITION. The words of chapter 12, field by field: what the part reads from the words it takes, and how it forms the
words it drives. Positions that a table does not assign are ignored on the way in and 0 on the way out (R204). -/

namespace Sys2Proof.Machine

/-- The unsigned field of `len` bits of a word from bit `lo` up. -/
def field (w : Word) (lo len : Nat) : Nat := w.toNat / 2 ^ lo % 2 ^ len

/-- A word of an unsigned number. -/
def wordOf (n : Nat) : Word := BitVec.ofNat 16 n

/-- A word of a signed number, in two's complement (R204). -/
def signedWord (x : Int) : Word := BitVec.ofInt 16 x

/-- 1 or 0. -/
def boolNat (b : Bool) : Nat := if b then 1 else 0

/-- The global head of word 1 of a frame and of a request, bits 15..12 (12.3, 12.4). -/
def globalHead (w : Word) : Nat := field w 12 4

/-- The wedge of word 1 of a frame and of a request, bits 11..3 (12.3, 12.4). -/
def wedgeField (w : Word) : Nat := field w 3 9

/-- The unit that serves a global head (R3, R47, R123). -/
def unitOf (globalHead : Nat) : Nat := globalHead / 8

/-- The local head of a global head: the global head less 8 × the unit number (R3). -/
def localHead (globalHead : Nat) : Head := Fin.ofNat 8 globalHead

/-- IdValid, bit 2 of word 1 of a frame (12.3). -/
def idValid (w : Word) : Bool := w.getLsbD 2

/-- Saturated, bit 1 of word 1 of a frame (12.3). -/
def saturatedBit (w : Word) : Bool := w.getLsbD 1

/-- An amplitude, bits 11..0 (12.3). -/
def amplitude (w : Word) : Nat := field w 0 12

/-- A parameter word as a local head, or none where it is outside 0..7. -/
def headParam (w : Word) : Option Head := if w.toNat < 8 then some (Fin.ofNat 8 w.toNat) else none

/-- A head-set word: bit h for local head h, bits 7..0 (12.5). -/
def HeadSet.ofWord (w : Word) : HeadSet := PerHead.ofFn fun h => w.getLsbD h.val

/-- The mask of a head set, bits 7..0. -/
def HeadSet.mask (hs : HeadSet) : Nat :=
  boolNat hs.h0 + 2 * boolNat hs.h1 + 4 * boolNat hs.h2 + 8 * boolNat hs.h3
    + 16 * boolNat hs.h4 + 32 * boolNat hs.h5 + 64 * boolNat hs.h6 + 128 * boolNat hs.h7

/-- A kinds mask (12.5). -/
def Kinds.ofWord (w : Word) : Kinds where
  runEnded := w.getLsbD 0
  revolution := w.getLsbD 1
  captureOverrun := w.getLsbD 2
  returnLost := w.getLsbD 3
  commandRefused := w.getLsbD 4
  importMismatch := w.getLsbD 5
  exclusionFull := w.getLsbD 6
  spindleLost := w.getLsbD 7
  pairFault := w.getLsbD 8
  startupDone := w.getLsbD 9

/-- The word of a set of kinds (12.5). -/
def Kinds.word (k : Kinds) : Word :=
  wordOf (boolNat k.runEnded + 2 * boolNat k.revolution + 4 * boolNat k.captureOverrun + 8 * boolNat k.returnLost
    + 16 * boolNat k.commandRefused + 32 * boolNat k.importMismatch + 64 * boolNat k.exclusionFull
    + 128 * boolNat k.spindleLost + 256 * boolNat k.pairFault + 512 * boolNat k.startupDone)

/-- The code of a cell state in a Record status word (12.7). -/
def CellState.code : CellState → Nat
  | .empty => 0
  | .loaded => 1
  | .learning => 2
  | .converged => 3
  | .suspect => 4
  | .excluded => 5

/-- The state a written Record status word names in bits 2..0, where it names one other than Excluded (R166). -/
def CellState.ofStatus (w : Word) : Option CellState :=
  match field w 0 3 with
  | 0 => some .empty
  | 1 => some .loaded
  | 2 => some .learning
  | 3 => some .converged
  | 4 => some .suspect
  | _ => none

/-- The status word of a Record item (12.7). -/
def Cell.statusWord (c : Cell) : Word :=
  wordOf (c.state.code + 8 * c.outliers + 128 * boolNat c.dirty + 256 * c.count)

/-- The words of an item in Packed or Record view (R163, R164). -/
def Cell.itemWords (packed : Bool) (c : Cell) : List Word :=
  if packed then [signedWord c.working]
  else [signedWord c.working, signedWord c.published, c.statusWord]

/-- The code of a reason (12.4). -/
def Reason.code : Reason → Nat
  | .normal => 0
  | .interpolated => 1
  | .hold => 2
  | .notReady => 3
  | .unconfigured => 4
  | .outOfRange => 5

/-- Reply word 1: served value in bits 15..4, reason code in bits 3..0 (12.4). -/
def FFReply.word1 (r : FFReply) : Word := wordOf ((BitVec.ofInt 12 r.value).toNat * 16 + r.reason.code)

/-- Reply word 2: offset in bits 15..4, Replaced in bit 1, Injecting in bit 0 (12.4). -/
def FFReply.word2 (r : FFReply) : Word :=
  wordOf ((BitVec.ofInt 12 r.offset).toNat * 16 + 2 * boolNat r.replaced + boolNat r.injecting)

/-- The kind of run a descriptor's word 1 names in bits 9..8 (12.5). -/
def RunKind.ofWord (w : Word) : Option RunKind :=
  match field w 8 2 with
  | 0 => some .learn
  | 1 => some .verify
  | 2 => some .gain
  | _ => none

/-- The code of a kind of run (12.5, 12.8). -/
def RunKind.code : RunKind → Nat
  | .learn => 0
  | .verify => 1
  | .gain => 2

/-- The code of a run outcome (12.8). -/
def RunOutcome.code : RunOutcome → Nat
  | .complete => 0
  | .exhausted => 1
  | .aborted => 2
  | .faulted => 3

/-- The code of a run's cause (12.8). -/
def RunCause.code : RunCause → Nat
  | .none => 0
  | .haltRun => 1
  | .feedForwardOff => 2
  | .selfTest => 3
  | .spindleLost => 4
  | .noHeads => 5

/-- The word of the gain part of a head entry (12.8). -/
def GainResult.word : GainResult → Word
  | .none => 0
  | .gain g => wordOf g
  | .insufficient => 1
  | .nonPositiveStep => 2
  | .gainRange => 3

/-- The twelve words of the discard totals, in their order (R106). -/
def Totals.words (t : Totals) : List Word :=
  [t.idInvalid, t.saturated, t.weak, t.inconsistent, t.offTrack, t.early, t.stale, t.duplicate, t.outlier,
    t.suspect, t.excluded, t.overrun].map wordOf

/-- The nine words of a head entry (12.8). -/
def HeadEntry.words (e : HeadEntry) : List Word :=
  [wordOf (e.head.val + 32768 * boolNat e.skipped), wordOf e.excluded, wordOf e.suspect, wordOf e.unmeasured,
    wordOf e.converged, wordOf e.learning, wordOf e.peak, signedWord e.offset, e.gain.word]

/-- The words of a result record (R106, 12.8). -/
def RunResult.words (r : RunResult) : List Word :=
  [wordOf (r.tag + 256 * r.kind.code), wordOf (r.outcome.code + 4 * r.cause.code), wordOf r.collectRevs,
    wordOf (r.retries + 256 * r.entries.length)]
    ++ r.totals.words ++ r.entries.flatMap HeadEntry.words

/-- The four words of a monitor reading (R44, 12.7). -/
def monitorWords (h : Head) : Option Monitor → List Word
  | none => [wordOf h.val, 0, 0, 0]
  | some m => [wordOf (h.val + 32768), signedWord m.pes, wordOf m.wedge, m.stamp]

/-- The word of an exclusion entry: head in bits 11..9, wedge in bits 8..0 (12.7). -/
def exclusionWord (p : Head × Nat) : Word := wordOf (p.1.val * 512 + p.2)

/-- The word of one writer's permissions: WC mask in bits 7..0, CS mask in bits 15..8 (12.7). -/
def permissionWord (t : PerHead Permission) : Word :=
  wordOf (HeadSet.mask (PerHead.ofFn fun h => (t.get h).wc)
    + 256 * HeadSet.mask (PerHead.ofFn fun h => (t.get h).cs))

/-- The four words of one head in Read Settings (R190, 12.7). -/
def Profile.words (p : Profile) : List Word :=
  [wordOf p.gain, wordOf (p.pendingGain.getD 0), signedWord p.offset,
    wordOf (p.lead + 8 * boolNat p.inverted + 16 * boolNat p.offsetSplit + 32 * boolNat p.importFault
      + 64 * boolNat p.publishPending + 128 * boolNat p.autoPublish)]

/-- The first twelve words of Read Settings (R190). -/
def Settings.words (t : Settings) : List Word :=
  [t.headsInstalled, t.wedges, t.depth, t.learnGain, t.threshold, t.outlierLimit, t.suspectCount, t.cmax, t.amin,
    t.retryLimit, t.indexTimeout, boolNat t.feedForward].map wordOf

/-- The code of the pair presence in Read Identity (12.7). -/
def Presence.code : Presence → Nat
  | .unknown => 0
  | .present => 1
  | .absent => 2
  | .secondary => 3

/-- The code of an outcome in the Status word (R205). -/
def Outcome.code : Outcome → Nat
  | .accepted => 0
  | .busy => 1
  | .badParameter => 2
  | .queueFull => 3
  | .tableFull => 4
  | .notFound => 5
  | .streaming => 6
  | .notReady => 7
  | .noResult => 8
  | .incomplete => 9

/-- The unit's own code at the end of a memory test (R197). -/
def memoryCode : MemoryResult → Nat
  | .pass => 0x01
  | .mapFault => 0x02
  | .queueFault => 0x03

/-- The capture record of a complete frame that passes the checks (R51); a word the frame lacks reads as 0, which no
complete frame does. -/
def recordOf (frame : List Word) (stamp : Rev) : Record where
  head := localHead (globalHead (frame.getD 0 0))
  wedge := wedgeField (frame.getD 0 0)
  track := frame.getD 1 0
  a := amplitude (frame.getD 2 0)
  b := amplitude (frame.getD 3 0)
  c := amplitude (frame.getD 4 0)
  d := amplitude (frame.getD 5 0)
  stamp := stamp

end Sys2Proof.Machine
end

