-- ==== Sys2Proof/Machine/Flags.lean ====
section
/-! DEFINITION. Event flags and Attention, the outcome of a command, the Status word, and what a read of the Bench Link
drives. -/

namespace Sys2Proof.Machine

/-- Whether a kind is in a set of kinds. -/
def Kinds.get (t : Kinds) : Kind → Bool
  | .runEnded => t.runEnded
  | .revolution => t.revolution
  | .captureOverrun => t.captureOverrun
  | .returnLost => t.returnLost
  | .commandRefused => t.commandRefused
  | .importMismatch => t.importMismatch
  | .exclusionFull => t.exclusionFull
  | .spindleLost => t.spindleLost
  | .pairFault => t.pairFault
  | .startupDone => t.startupDone

/-- The set of kinds with one kind added. A flag already set stays set (R184). -/
def Kinds.add (t : Kinds) : Kind → Kinds
  | .runEnded => { t with runEnded := true }
  | .revolution => { t with revolution := true }
  | .captureOverrun => { t with captureOverrun := true }
  | .returnLost => { t with returnLost := true }
  | .commandRefused => { t with commandRefused := true }
  | .importMismatch => { t with importMismatch := true }
  | .exclusionFull => { t with exclusionFull := true }
  | .spindleLost => { t with spindleLost := true }
  | .pairFault => { t with pairFault := true }
  | .startupDone => { t with startupDone := true }

/-- Two sets of kinds combined kind by kind. -/
def Kinds.map2 (f : Bool → Bool → Bool) (a b : Kinds) : Kinds where
  runEnded := f a.runEnded b.runEnded
  revolution := f a.revolution b.revolution
  captureOverrun := f a.captureOverrun b.captureOverrun
  returnLost := f a.returnLost b.returnLost
  commandRefused := f a.commandRefused b.commandRefused
  importMismatch := f a.importMismatch b.importMismatch
  exclusionFull := f a.exclusionFull b.exclusionFull
  spindleLost := f a.spindleLost b.spindleLost
  pairFault := f a.pairFault b.pairFault
  startupDone := f a.startupDone b.startupDone

/-- The kinds of `a` that are not in `b`. -/
def Kinds.minus (a b : Kinds) : Kinds := Kinds.map2 (fun x y => x && !y) a b

/-- Whether a set of kinds holds any kind. -/
def Kinds.nonempty (t : Kinds) : Bool :=
  t.runEnded || t.revolution || t.captureOverrun || t.returnLost || t.commandRefused || t.importMismatch
    || t.exclusionFull || t.spindleLost || t.pairFault || t.startupDone

/-- The occurrence of an event kind sets its flag (R184). -/
def State.raise (s : State) (k : Kind) : State :=
  { s with bench := { s.bench with flags := s.bench.flags.add k } }

/-- The unit's own Attention: some kind has both its flag and its enable set (R184). -/
def State.attention (s : State) : Bool := (Kinds.map2 (· && ·) s.bench.flags s.bench.enables).nonempty

/-- A command is answered Accepted (R181). -/
def State.accept (s : State) : State :=
  { s with bench := { s.bench with lastOutcome := .accepted } }

/-- A command is answered with an outcome other than Accepted, which sets CommandRefused (R181). -/
def State.refuse (s : State) (o : Outcome) : State :=
  { s with bench := { s.bench with lastOutcome := o, flags := s.bench.flags.add .commandRefused } }

/-- The judgement common to the commands with no order of their own: NotReady, then Streaming, then the command's own
terms (R181). -/
def State.judged (s : State) (own : State → State) : State :=
  if s.startup.unitState = .failed then s.refuse .notReady
  else if s.bench.stream.isSome then s.refuse .streaming
  else own s

/-- Busy: a sweep is in flight or the unit is Starting (R182). -/
def State.busy (s : State) : Bool := s.sweep.isSome || decide (s.startup.unitState = .starting)

/-- The condition field C of the Status word (R205). -/
def State.condition (s : State) : Nat :=
  let f := boolNat s.settings.feedForward
  let b := boolNat s.busy
  let r := s.runs.results.length
  let q := s.runs.queue.length
  match s.startup.unitState with
  | .starting => 1 + f + 2 * (r + 9 * q)
  | .failed => 163 + f + 2 * r
  | .ready =>
    if s.runs.active.isSome then 505 + b + 2 * (r + 8 * q) else 181 + b + 2 * f + 4 * (r + 9 * q)

/-- The Status word of the unit: 100 × C + 50 × A + 10 × Q + O (R205). -/
def State.statusWord (s : State) : Word :=
  wordOf (100 * s.condition + 50 * boolNat s.attention + 10 * s.bench.returnQueue.length + s.bench.lastOutcome.code)

/-- Whether the unit drives the reads of the link and the Ready line for itself: it is the selected unit, and, as a
secondary, asserts Present (R187, R188). -/
def State.drivesLink (s : State) : Bool :=
  decide (s.bench.selected = s.startup.unitNo) && (decide (s.startup.unitNo = 0) || s.startup.presLine)

/-- Whether the unit answers reads for an absent secondary: a primary that recorded its secondary absent, while unit 1 is
selected and Present is released (R188). -/
def State.answersForAbsent (s : State) : Bool :=
  decide (s.startup.unitNo = 0) && decide (s.bench.selected = 1) && decide (s.startup.presence = .absent)
    && !s.startup.presLine

/-- The word the unit drives at a read strobe with the given select, or none where it drives none (R179, R188). The Status
word of an absent secondary is 0 (R205), as is every other word of it (R204). -/
def State.linkRead (s : State) (select : BitVec 2) : Option Word :=
  if s.drivesLink then
    some (match select.toNat with
      | 0 => s.bench.returnQueue.headD 0
      | 3 => s.bench.flags.word
      | _ => s.statusWord)
  else if s.answersForAbsent then some 0
  else none

/-- The Ready line as the unit drives it (R179, R188). -/
def State.readyLine (s : State) : Bool := s.drivesLink && !s.bench.returnQueue.isEmpty

end Sys2Proof.Machine
end

