-- ==== Sys2Proof/Machine/Ops.lean ====
section
/-! DEFINITION. The named operations the steps are built from: cells and rows of the map, head profiles, the discard
totals, the window and pointer, streams, the Exclusion Table, and the conclusion of a run. -/

namespace Sys2Proof.Machine

/-! ### Cells -/

/-- The cell at a head and wedge (R5). -/
def State.cell (s : State) (h : Head) (w : Nat) : Cell := Sparse.get Cell.blank (s.map.get h) w

/-- The map with one cell changed. -/
def modifyCellOf (m : PerHead (Sparse Cell)) (h : Head) (w : Nat) (f : Cell → Cell) : PerHead (Sparse Cell) :=
  m.set h (Sparse.set Cell.blank (m.get h) w (f (Sparse.get Cell.blank (m.get h) w)))

/-- One cell changed. -/
def State.modifyCell (s : State) (h : Head) (w : Nat) (f : Cell → Cell) : State :=
  { s with map := modifyCellOf s.map h w f }

/-- The map with the cells of the heads that satisfy `p` changed by a function of head and wedge (an operation taken whole
at the Map Store, R20). -/
def updateRows (m : PerHead (Sparse Cell)) (p : Head → Bool) (f : Head → Nat → Cell → Cell) : PerHead (Sparse Cell) :=
  PerHead.ofFn fun h => if p h then Sparse.update Cell.blank Config.gridWedges (f h) (m.get h) else m.get h

/-- A change of the cells of wedges 0..W−1. -/
def belowW (wedges : Nat) (f : Cell → Cell) (w : Nat) (c : Cell) : Cell := if w < wedges then f c else c

/-- Whether a cell is configured (R17). -/
def State.configured (s : State) (h : Head) (w : Nat) : Bool :=
  decide (h.val < s.settings.headsInstalled) && decide (w < s.settings.wedges)

/-- A cell's state write that is not the Exclusion Table's: aimed at an Excluded cell it leaves it Excluded (R8). -/
def Cell.writeState (c : Cell) (st : CellState) : Cell := if c.state = .excluded then c else { c with state := st }

/-- The state an entry's removal restores: Loaded if the working correction is nonzero, Empty otherwise (R146). -/
def Cell.included (c : Cell) : Cell := { c with state := if c.working = 0 then .empty else .loaded }

/-- The sum and count emptied (R11). -/
def Cell.clearSums (c : Cell) : Cell := { c with sum := 0, count := 0 }

/-- The cell of an accepted Set Geometry or of the start-up preparation: Excluded becomes Empty (R18, R198). -/
def Cell.unexcluded (c : Cell) : Cell := if c.state = .excluded then { c with state := .empty } else c

/-! ### Head profiles -/

/-- The profile of a head. -/
def State.profile (s : State) (h : Head) : Profile := s.profiles.get h

/-- One profile changed. -/
def State.modifyProfile (s : State) (h : Head) (f : Profile → Profile) : State :=
  { s with profiles := s.profiles.modify h f }

/-- Every profile changed by a function of its head. -/
def updateProfiles (t : PerHead Profile) (f : Head → Profile → Profile) : PerHead Profile :=
  PerHead.ofFn fun h => f h (t.get h)

/-! ### Run totals -/

/-- A total raised by one, saturating at 65535 (R106). -/
def Totals.bump (t : Totals) : Discard → Totals
  | .idInvalid => { t with idInvalid := satInc 65535 t.idInvalid }
  | .saturated => { t with saturated := satInc 65535 t.saturated }
  | .weak => { t with weak := satInc 65535 t.weak }
  | .inconsistent => { t with inconsistent := satInc 65535 t.inconsistent }
  | .offTrack => { t with offTrack := satInc 65535 t.offTrack }
  | .early => { t with early := satInc 65535 t.early }
  | .stale => { t with stale := satInc 65535 t.stale }
  | .duplicate => { t with duplicate := satInc 65535 t.duplicate }
  | .outlier => { t with outlier := satInc 65535 t.outlier }
  | .suspect => { t with suspect := satInc 65535 t.suspect }
  | .excluded => { t with excluded := satInc 65535 t.excluded }
  | .overrun => { t with overrun := satInc 65535 t.overrun }

/-- The run context with a discard counted. -/
def RunCtx.count (c : RunCtx) (d : Discard) : RunCtx := { c with totals := c.totals.bump d }

/-- A discard raises the active run's total for its cause, and nothing when no run is active (R36, R49, R53). -/
def State.countDiscard (s : State) (d : Discard) : State :=
  { s with runs := { s.runs with active := s.runs.active.map (·.count d) } }

/-! ### The window and the pointer -/

/-- The pointer at the window's start under an access order (R160, R161). -/
def windowStart (win : Window) (ord : Order) : Option Pointer :=
  some { head := win.firstHead, wedge := if ord.descending then win.lastWedge else win.firstWedge, pos := 0 }

/-- The next head. -/
def headAfter (h : Head) : Head := Fin.ofNat 8 (h.val + 1)

/-- The wedge one place on in the wedge direction, or none where that leaves the window's range (R161). -/
def stepWedge (win : Window) (ord : Order) (w : Nat) : Option Nat :=
  if ord.descending then (if win.firstWedge < w then some (w - 1) else none)
  else (if w < win.lastWedge then some (w + 1) else none)

/-- The item after an item in the walk of the window; none is past the end (R161). -/
def advancePointer (win : Window) (ord : Order) (p : Pointer) : Option Pointer :=
  let start := if ord.descending then win.lastWedge else win.firstWedge
  if ord.headMajor then
    if p.head.val < win.lastHead.val then some { head := headAfter p.head, wedge := p.wedge, pos := 0 }
    else (stepWedge win ord p.wedge).map fun w => { head := win.firstHead, wedge := w, pos := 0 }
  else
    match stepWedge win ord p.wedge with
    | some w => some { head := p.head, wedge := w, pos := 0 }
    | none =>
      if p.head.val < win.lastHead.val then some { head := headAfter p.head, wedge := start, pos := 0 } else none

/-- The pointer set to the window's start. -/
def BenchLink.resetPointer (b : BenchLink) : BenchLink := { b with pointer := windowStart b.window b.order }

/-- The words of the item at a pointer; a read of an unconfigured cell yields 0 for every word (R17, R163, R164). -/
def State.itemAt (s : State) (p : Pointer) : List Word :=
  let ws := (s.cell p.head p.wedge).itemWords s.bench.order.packed
  if s.configured p.head p.wedge then ws else ws.map fun _ => 0

/-! ### The Return Queue and streams -/

/-- The words of a list that find room in the Return Queue. -/
def roomFor (q ws : List Word) : List Word := ws.take (Config.returnQueueDepth - q.length)

/-- The words of a list that find none. -/
def noRoomFor (q ws : List Word) : List Word := ws.drop (Config.returnQueueDepth - q.length)

/-- Words of a plain copy placed as room frees; the stream ends with its last word (R171). -/
def BenchLink.placeCopy (b : BenchLink) (ws : List Word) : BenchLink :=
  { b with
    returnQueue := b.returnQueue ++ roomFor b.returnQueue ws
    stream := if noRoomFor b.returnQueue ws = [] then none
              else some { kind := .copy, words := noRoomFor b.returnQueue ws } }

/-- Whether a Stream Map has read its last item: its count is reached, or the pointer has passed the end (R172). -/
def BenchLink.itemsDone (b : BenchLink) (left : Option Nat) : Bool := decide (left = some 0) || b.pointer.isNone

/-- The stream places its words as room frees (R171). When a copy's last word has been placed, a Take Result stream removes
its result (R108); a Stream Map that has read its last item places its CRC, if it is an export, and ends (R172, R175);
any other Stream Map waits for its next read. -/
def State.pump (s : State) : State :=
  match s.bench.stream with
  | none => s
  | some st =>
    let q := s.bench.returnQueue ++ roomFor s.bench.returnQueue st.words
    let rest := noRoomFor s.bench.returnQueue st.words
    if rest ≠ [] then
      { s with bench := { s.bench with returnQueue := q, stream := some { st with words := rest } } }
    else
      match st.kind with
      | .copy => { s with bench := { s.bench with returnQueue := q, stream := none } }
      | .result =>
        { s with
          bench := { s.bench with returnQueue := q, stream := none }
          runs := { s.runs with results := s.runs.results.tail } }
      | .map left crc =>
        if s.bench.itemsDone left then
          match crc with
          | none => { s with bench := { s.bench with returnQueue := q, stream := none } }
          | some r => { s with bench := { s.bench with returnQueue := q }.placeCopy (crcWords r) }
        else { s with bench := { s.bench with returnQueue := q, stream := some { st with words := [] } } }

/-- A stream starts and places the words for which there is room (R171). -/
def State.startStream (s : State) (kind : StreamKind) (words : List Word) : State :=
  State.pump { s with bench := { s.bench with stream := some { kind := kind, words := words } } }

/-- Whether a Stream Map waits to read its next item: every word of the item before has been placed (R172). -/
def State.streamReadWaiting (s : State) : Bool :=
  match s.bench.stream with
  | some { kind := .map _ _, words := [] } => true
  | _ => false

/-- A Stream Map reads the item at the pointer as its copy, advances the pointer, and places the words for which there is
room (R172). The CRC of an export is formed over the words (R175). -/
def State.readStreamItem (s : State) (left : Option Nat) (crc : Option (BitVec 32)) : State :=
  match s.bench.pointer with
  | none => s
  | some p =>
    let ws := s.itemAt p
    State.pump { s with bench := { s.bench with
      pointer := advancePointer s.bench.window s.bench.order p
      stream := some { kind := .map (left.map (· - 1)) (crc.map fun r => ws.foldl crcWord r), words := ws } } }

/-- The read that a Stream Map has claimed is completed. -/
def State.completeStreamRead (s : State) : State :=
  match s.bench.stream with
  | some { kind := .map left crc, words := [] } => s.readStreamItem left crc
  | _ => s

/-! ### The Exclusion Table -/

/-- The order of the Exclusion Table: head, then wedge (R143). -/
def exclusionBefore (a b : Head × Nat) : Bool :=
  decide (a.1.val < b.1.val) || (decide (a.1 = b.1) && decide (a.2 < b.2))

/-- An entry inserted at the place that keeps the order (R143). -/
def insertExclusion (e : Head × Nat) : List (Head × Nat) → List (Head × Nat)
  | [] => [e]
  | x :: xs => if exclusionBefore e x then e :: x :: xs else if e = x then x :: xs else x :: insertExclusion e xs

/-- An entry enters the Exclusion Table and its cell becomes Excluded, no other field of it written (R145). -/
def State.enterExclusion (s : State) (h : Head) (w : Nat) : State :=
  { s with
    exclusions := insertExclusion (h, w) s.exclusions
    map := modifyCellOf s.map h w fun c => { c with state := .excluded } }

/-- The Exclusion Table emptied with every Excluded cell set to Empty (R18, R198). -/
def State.emptyExclusions (s : State) : State :=
  { s with
    exclusions := []
    map := updateRows s.map (fun _ => true) fun _ _ => Cell.unexcluded }

/-! ### Runs -/

/-- Whether a phase is a collect phase (R41). -/
def Phase.collecting : Phase → Bool
  | .collect | .plusCollect | .minusCollect => true
  | .settle | .plusSettle | .minusSettle => false

/-- The wedges 0..W−1 of a head whose cells are not Excluded. -/
def State.goodWedges (s : State) (h : Head) : List Nat :=
  (List.range s.settings.wedges).filter fun w => decide ((s.cell h w).state ≠ .excluded)

/-- The verdict mark of a cell in a run (R89). -/
def RunCtx.verdict (c : RunCtx) (h : Head) (w : Nat) : Verdict := Sparse.get .unmeasured (c.verdicts.get h) w

/-- The number of wedges 0..W−1 that satisfy a test. -/
def countWedges (wedges : Nat) (p : Nat → Bool) : Nat := ((List.range wedges).filter p).length

/-- The number of a head's cells that are neither Excluded nor Suspect and bear a verdict mark (R107). -/
def State.verdictCount (s : State) (ctx : RunCtx) (h : Head) (v : Verdict) : Nat :=
  countWedges s.settings.wedges fun w =>
    decide ((s.cell h w).state ≠ .excluded) && decide ((s.cell h w).state ≠ .suspect)
      && decide (ctx.verdict h w = v)

/-- The head entry of a run head (R107). -/
def State.entryOf (s : State) (ctx : RunCtx) (gains : PerHead GainResult) (h : Head) : HeadEntry where
  head := h
  skipped := false
  excluded := countWedges s.settings.wedges fun w => decide ((s.cell h w).state = .excluded)
  suspect := countWedges s.settings.wedges fun w => decide ((s.cell h w).state = .suspect)
  unmeasured := s.verdictCount ctx h .unmeasured
  converged := s.verdictCount ctx h .converged
  learning := s.verdictCount ctx h .learning
  peak := ctx.peaks.get h
  offset := meanOf ((s.goodWedges h).map fun w => (s.cell h w).working)
  gain := gains.get h

/-- The result of a run, formed from its context and from the cells as they stand (R106, R107). -/
def State.resultOf (s : State) (ctx : RunCtx) (o : RunOutcome) (c : RunCause) (gains : PerHead GainResult) : RunResult where
  tag := ctx.desc.tag
  kind := ctx.desc.kind
  outcome := o
  cause := c
  collectRevs := ctx.collectRevs
  retries := ctx.retries
  totals := ctx.totals
  entries := (allHeads.filter fun h => ctx.heads.get h || ctx.skipped.get h).map fun h =>
    if ctx.heads.get h then s.entryOf ctx gains h else { head := h, skipped := true }

/-- What a conclusion leaves in a run head's profile: the auto-publish mark cleared; for Complete or Exhausted the publish
pending mark set; for Aborted or Faulted the pending gain discarded (R98, R99). -/
def Profile.concluded (o : RunOutcome) (p : Profile) : Profile :=
  match o with
  | .complete | .exhausted => { p with autoPublish := false, publishPending := true }
  | .aborted | .faulted => { p with autoPublish := false, pendingGain := none }

/-- What a conclusion leaves of a publication of a run head that is still to come: the publish pending mark that Complete or
Exhausted sets is not one it clears, so the final publication comes at the next index (R79; log 29). -/
def DueHead.concluded (o : RunOutcome) (d : DueHead) : DueHead :=
  match o with
  | .complete | .exhausted => { d with marked := false }
  | .aborted | .faulted => d

/-- The conclusion of a run (R98, R99): the result is formed and queued, the sums and counts of the run heads are emptied,
their marks and pending gains follow the outcome, the index timer stops, RunEnded is set and the context, its injection
with it, is discarded. -/
def State.conclude (s : State) (ctx : RunCtx) (o : RunOutcome) (c : RunCause) (gains : PerHead GainResult) : State :=
  { s with
    map := updateRows s.map ctx.heads.get fun _ => belowW s.settings.wedges Cell.clearSums
    profiles := updateProfiles s.profiles fun h p => if ctx.heads.get h then p.concluded o else p
    publishing := s.publishing.map fun d => if ctx.heads.get d.head then d.concluded o else d
    index := { s.index with timer := none }
    runs := { s.runs with active := none, results := s.runs.results ++ [s.resultOf ctx o c gains] }
    bench := { s.bench with flags := s.bench.flags.add .runEnded } }

/-- The active run, if any, is ended before its time as Aborted or Faulted (R100 to R102, R60); no gain is computed
(R121). -/
def State.endRun (s : State) (o : RunOutcome) (c : RunCause) : State :=
  match s.runs.active with
  | none => s
  | some ctx => s.conclude ctx o c (PerHead.all .none)

end Sys2Proof.Machine
end

