-- ==== Sys2Proof/Machine/Capture.lean ====
section
/-! DEFINITION. The Capture Port: frame assembly, the first checks, stamping and the Capture FIFO (03). -/

namespace Sys2Proof.Machine

/-- A partial frame or a stray word is discarded as Malformed (R46). -/
def Capture.countMalformed (c : Capture) : Capture := { c with malformed := satInc 65535 c.malformed }

/-- The frame in assembly replaced. -/
def State.setFrame (s : State) (f : List Word) : State := { s with capture := { s.capture with frame := f } }

/-- A stamped record is lost at a full Capture FIFO (R53). -/
def State.captureOverrun (s : State) : State :=
  State.raise (State.countDiscard
    { s with capture := { s.capture with overrun := satInc 255 s.capture.overrun } } .overrun) .captureOverrun

/-- A record is placed in the Capture FIFO as its newest entry, or lost where the FIFO is full (R52, R53). -/
def State.queueRecord (s : State) (r : Record) : State :=
  if s.capture.fifo.length < Config.fifoDepth then
    { s with capture := { s.capture with fifo := s.capture.fifo ++ [r] } }
  else s.captureOverrun

/-- The first checks of a frame routed to the unit, in their order (R48, R49), and its stamping and queuing (R51). -/
def State.checkFrame (s : State) (frame : List Word) : State :=
  let w := frame.getD 0 0
  let r := recordOf frame s.index.rev
  if s.settings.headsInstalled ≤ r.head.val then
    { s with capture := { s.capture with unconfigured := satInc 65535 s.capture.unconfigured } }
  else if s.settings.wedges ≤ r.wedge then
    { s with capture := { s.capture with outOfRange := satInc 65535 s.capture.outOfRange } }
  else if idValid w = false then s.countDiscard .idInvalid
  else if saturatedBit w then s.countDiscard .saturated
  else s.queueRecord r

/-- A complete frame: ignored where its head is another unit's (R47), dropped while the unit is Starting or Failed (R50),
checked otherwise (R48). -/
def State.completeFrame (s : State) (frame : List Word) : State :=
  if unitOf (globalHead (frame.getD 0 0)) ≠ s.startup.unitNo.val then s
  else if s.startup.unitState ≠ .ready then s
  else s.checkFrame frame

/-- A word written to the Capture Port (R45): with the frame start line it begins a frame, ending any partial one as
Malformed; without it, it is stray while Idle (R46), and otherwise the next word of the frame, the sixth completing it. -/
def State.captureWord (s : State) (frameStart : Bool) (w : Word) : State :=
  if frameStart then
    if s.capture.frame = [] then s.setFrame [w]
    else State.setFrame { s with capture := s.capture.countMalformed } [w]
  else if s.capture.frame = [] then { s with capture := s.capture.countMalformed }
  else if s.capture.frame.length < 5 then s.setFrame (s.capture.frame ++ [w])
  else State.completeFrame (s.setFrame []) (s.capture.frame ++ [w])

/-- CAPTURE_WORD (R45 to R53). -/
def execCaptureWord (frameStart : Bool) (w : Word) (s : State) : Host.Outcome State Fault Refusal :=
  .next (s.captureWord frameStart w)

end Sys2Proof.Machine
end

