-- ==== Sys2Proof/Machine/Exclusions.lean ====
section
/-! DEFINITION. The commands of the Exclusion Table and the Permission Table (08). -/

namespace Sys2Proof.Machine

/-- Exclude on a pair that may name a cell (R144). -/
def State.excludeCell (s : State) (h : Head) (w : Nat) : State :=
  if s.configured h w = false then s.refuse .badParameter
  else if s.exclusions.contains (h, w) then s.accept
  else if Config.exclusionDepth ≤ s.exclusions.length then State.raise (s.refuse .tableFull) .exclusionFull
  else (s.enterExclusion h w).accept

/-- Exclude (R144): a head outside 0..7 is at or above HeadsInstalled. -/
def State.cmdExclude (head wedge : Word) (s : State) : State :=
  s.judged fun s =>
    match headParam head with
    | none => s.refuse .badParameter
    | some h => s.excludeCell h wedge.toNat

/-- Include (R146). -/
def State.cmdInclude (head wedge : Word) (s : State) : State :=
  s.judged fun s =>
    match headParam head with
    | none => s.refuse .notFound
    | some h =>
      if s.exclusions.contains (h, wedge.toNat) then
        State.accept { s with
          exclusions := s.exclusions.filter fun e => decide (e ≠ (h, wedge.toNat))
          map := modifyCellOf s.map h wedge.toNat Cell.included }
      else s.refuse .notFound

/-- Clear Exclusions (R147): every entry of a head of the set is removed, and its cell restored as Include restores it. -/
def State.cmdClearExclusions (heads : Word) (s : State) : State :=
  s.judged fun s =>
    let hs := HeadSet.ofWord heads
    State.accept { s with
      exclusions := s.exclusions.filter fun e => !hs.get e.1
      map := updateRows s.map hs.get fun h w c => if s.exclusions.contains (h, w) then c.included else c }

/-- Read Exclusions (R148). -/
def State.cmdReadExclusions (s : State) : State :=
  s.judged fun s =>
    s.accept.startStream .copy (wordOf s.exclusions.length :: s.exclusions.map exclusionWord)

/-- A writer's marks replaced for the heads of a set (R154). -/
def replaceMarks (t : PerHead Permission) (hs : HeadSet) (p : Permission) : PerHead Permission :=
  PerHead.ofFn fun h => if hs.get h then p else t.get h

/-- Set Permissions (R154). -/
def State.cmdSetPermissions (writer heads fields : Word) (s : State) : State :=
  s.judged fun s =>
    let hs := HeadSet.ofWord heads
    let p : Permission := { wc := fields.getLsbD 0, cs := fields.getLsbD 1 }
    match writer.toNat with
    | 0 => State.accept { s with perms := { s.perms with bench := replaceMarks s.perms.bench hs p } }
    | 1 => State.accept { s with perms := { s.perms with learning := replaceMarks s.perms.learning hs p } }
    | 2 => State.accept { s with perms := { s.perms with sweep := replaceMarks s.perms.sweep hs p } }
    | _ => s.refuse .badParameter

/-- Read Permissions (R155). -/
def State.cmdReadPermissions (s : State) : State :=
  s.judged fun s =>
    s.accept.startStream .copy
      [permissionWord s.perms.bench, permissionWord s.perms.learning, permissionWord s.perms.sweep]

end Sys2Proof.Machine
end

