-- ==== Sys2Proof/Machine/Learning.lean ====
section
/-! DEFINITION. The Learning Engine: taking a record (02), admission, accumulation and update (04), GAIN samples (06), and
the Exclusion Table's auto-exclusion (08). -/

namespace Sys2Proof.Machine

/-- Whether the Feed-Forward Server's claim waits at the Map Arbiter (R124, R129). -/
def State.ffWaiting (s : State) : Bool :=
  match s.ff.server with
  | .forming _ => true
  | .idle | .replying _ _ => false

/-! ### Taking a record -/

/-- The serial of the active run, if the head is one of its heads and it is in a collect phase (R41). -/
def State.admitting (s : State) (h : Head) : Option RunCtx :=
  s.runs.active.filter fun c => c.heads.get h && c.phase.collecting

/-- The end of stage 3 for a record: the monitor is written (R39), and the record is handed on to admission when its head
is a head of the active run in a collect phase (R41). -/
def State.finishStage3 (s : State) (r : Record) (e : Int) : State :=
  { s with
    profiles := s.profiles.modify r.head fun p => { p with monitor := some { pes := e, wedge := r.wedge, stamp := r.stamp } }
    held := (s.admitting r.head).map fun c =>
      { head := r.head, wedge := r.wedge, track := r.track, stamp := r.stamp, e := e, run := c.serial } }

/-- Stages 1 to 3 for a record the engine has taken (R29 to R41). -/
def State.processRecord (s : State) (r : Record) : State :=
  match positionError s.settings.amin (s.profile r.head).gain r.a r.b r.c r.d with
  | .weak => s.countDiscard .weak
  | .inconsistent => s.countDiscard .inconsistent
  | .error e => s.finishStage3 r e

/-- The Learning Engine takes the oldest record, if it holds none for admission and there is one (R29, R43). -/
def State.takeRecord (s : State) : State :=
  if s.held.isSome then s
  else
    match s.capture.fifo with
    | [] => s
    | r :: rest => State.processRecord { s with capture := { s.capture with fifo := rest } } r

/-! ### Admission -/

/-- The checks of a LEARN or VERIFY sample, in their order (R63); none admits the sample. -/
def judgeSample (ctx : RunCtx) (outlierLimit : Nat) (c : Cell) (r : HeldRecord) : Option Discard :=
  if r.track ≠ ctx.desc.track then some .offTrack
  else if (ctx.collectStart.map (earlier r.stamp)).getD false then some .early
  else if c.state = .suspect then some .suspect
  else if c.state = .excluded then some .excluded
  else if c.dirty || earlier r.stamp c.effRev then some .stale
  else if c.lastStamp = some r.stamp then some .duplicate
  else if outlierLimit < r.e.natAbs then some .outlier
  else none

/-- The checks of a GAIN sample, in their order (R114); none admits the sample. -/
def judgeGainSample (ctx : RunCtx) (outlierLimit : Nat) (c : Cell) (r : HeldRecord) : Option Discard :=
  if r.track ≠ ctx.desc.track then some .offTrack
  else if (ctx.collectStart.map (earlier r.stamp)).getD false then some .early
  else if c.state = .excluded then some .excluded
  else if outlierLimit < r.e.natAbs then some .outlier
  else none

/-- A cell at an Outlier discard where the Learning writer holds CS: the outlier count is raised, and at K or more the cell
is Suspect (R67). -/
def Cell.countOutlier (k : Nat) (c : Cell) : Cell :=
  { c with
    outliers := satInc 15 c.outliers
    state := if k ≤ satInc 15 c.outliers then .suspect else c.state }

/-- An Outlier discard of a LEARN or VERIFY sample (R67): where the Learning writer holds CS the cell counts it and may turn
Suspect, and with AutoExclude a cell so turned asks the Exclusion Table to enter it. -/
def State.discardOutlier (s : State) (ctx : RunCtx) (r : HeldRecord) : State :=
  if (s.perms.learning.get r.head).cs && s.configured r.head r.wedge then
    { s with
      map := modifyCellOf s.map r.head r.wedge (Cell.countOutlier s.settings.suspectCount)
      autoRequests :=
        if ctx.desc.autoExclude
            && decide ((Cell.countOutlier s.settings.suspectCount (s.cell r.head r.wedge)).state = .suspect)
        then s.autoRequests ++ [(r.head, r.wedge)] else s.autoRequests }
  else s

/-! ### Accumulation and update -/

/-- A sample accumulated into its cell (R69). -/
def Cell.accumulate (e : Int) (stamp : Rev) (c : Cell) : Cell :=
  { c with sum := c.sum + e, count := c.count + 1, lastStamp := some stamp }

/-- The average an update forms (R70). -/
def Cell.average (depth : Nat) (c : Cell) : Int := rounded c.sum depth

/-- The new working correction of an update: corr_old − rounded(avg × L / 8), clamped to ±Cmax (R70). -/
def newCorrection (t : Settings) (avg corrOld : Int) : Int :=
  clampCorr t.cmax (corrOld - rounded (avg * t.learnGain) 8)

/-- The update of a cell whose count has reached the depth (R70 to R72): `write` says whether the working correction is
written, which takes a LEARN run and the Learning writer's WC. -/
def Cell.update (t : Settings) (depth : Nat) (write cs : Bool) (c : Cell) : Cell :=
  let avg := c.average depth
  let new := if write then newCorrection t avg c.working else c.working
  { c with
    working := new
    dirty := c.dirty || decide (new ≠ c.working)
    state := if cs then (if avg.natAbs ≤ t.threshold then .converged else .learning) else c.state
    sum := 0
    count := 0 }

/-- What an update writes in the run context: the verdict mark (R97) and the peak residual (R72). -/
def RunCtx.recordUpdate (ctx : RunCtx) (threshold : Nat) (h : Head) (w : Nat) (avg : Int) : RunCtx :=
  { ctx with
    verdicts := ctx.verdicts.set h
      (Sparse.set .unmeasured (ctx.verdicts.get h) w (if avg.natAbs ≤ threshold then .converged else .learning))
    peaks := ctx.peaks.set h (max (ctx.peaks.get h) avg.natAbs) }

/-- An admitted LEARN or VERIFY sample (R69 to R72). -/
def State.admitSample (s : State) (ctx : RunCtx) (r : HeldRecord) : State :=
  if s.configured r.head r.wedge then
    let c := (s.cell r.head r.wedge).accumulate r.e r.stamp
    if c.count < ctx.depth then
      s.modifyCell r.head r.wedge (Cell.accumulate r.e r.stamp)
    else
      let perm := s.perms.learning.get r.head
      { s with
        map := modifyCellOf s.map r.head r.wedge fun c =>
          (c.accumulate r.e r.stamp).update s.settings ctx.depth (decide (ctx.desc.kind = .learn) && perm.wc) perm.cs
        runs := { s.runs with
          active := some (ctx.recordUpdate s.settings.threshold r.head r.wedge (c.average ctx.depth)) } }
  else s

/-- An admitted GAIN sample added to its head's sum for the phase, unless the count stands at 65535 (R115). -/
def PhaseSums.add (p : PhaseSums) (minus : Bool) (e : Int) : PhaseSums :=
  if minus then
    if p.minusCount < 65535 then { p with minusSum := p.minusSum + e, minusCount := p.minusCount + 1 } else p
  else
    if p.plusCount < 65535 then { p with plusSum := p.plusSum + e, plusCount := p.plusCount + 1 } else p

/-- An admitted GAIN sample (R114, R115): no field of the cell is written. -/
def State.admitGainSample (s : State) (ctx : RunCtx) (r : HeldRecord) : State :=
  { s with runs := { s.runs with
      active := some { ctx with
        sums := ctx.sums.modify r.head fun p => p.add (decide (ctx.phase = .minusCollect)) r.e } } }

/-- A sample of a LEARN or VERIFY run judged and taken (R63, R67 to R72). -/
def State.learnSample (s : State) (ctx : RunCtx) (r : HeldRecord) : State :=
  match judgeSample ctx s.settings.outlierLimit (s.cell r.head r.wedge) r with
  | none => s.admitSample ctx r
  | some .outlier => State.countDiscard (s.discardOutlier ctx r) .outlier
  | some d => s.countDiscard d

/-- A sample of a GAIN run judged and taken (R114). -/
def State.gainSample (s : State) (ctx : RunCtx) (r : HeldRecord) : State :=
  match judgeGainSample ctx s.settings.outlierLimit (s.cell r.head r.wedge) r with
  | none => s.admitGainSample ctx r
  | some d => s.countDiscard d

/-- The granted operation on the record held: it is judged in the run it was handed on in, if that run is active and in a
collect phase with the head among its heads, and finished uncounted otherwise (R42, R62). -/
def State.learnOperation (s : State) (r : HeldRecord) : State :=
  match (s.admitting r.head).filter (fun c => decide (c.serial = r.run)) with
  | none => s
  | some ctx => if ctx.desc.kind = .gain then s.gainSample ctx r else s.learnSample ctx r

/-- A Learning Engine operation is granted to the record held, unless a Feed-Forward Server claim waits, which the arbiter
grants first (R19). -/
def State.grantLearning (s : State) : State :=
  if s.ffWaiting then s
  else
    match s.held with
    | none => s
    | some r => State.learnOperation { s with held := none } r

/-! ### Auto-exclusion -/

/-- The position of the waiting auto-exclusion that is taken next: any of them may be (R149; log 13). -/
def State.autoNext (s : State) : Nat := s.autoOrder.headD 0 % s.autoRequests.length

/-- One of the waiting auto-exclusions is taken and judged on the table as it stands (R149). A request whose cell a Set
Geometry has left unconfigured enters nothing: the model's choice (log 13). -/
def State.takeAutoExclusion (s : State) : State :=
  match s.autoRequests[s.autoNext]? with
  | none => s
  | some (h, w) =>
    let s1 := { s with autoRequests := s.autoRequests.eraseIdx s.autoNext, autoOrder := s.autoOrder.tail }
    if s1.exclusions.contains (h, w) then s1
    else if s1.configured h w = false then s1
    else if Config.exclusionDepth ≤ s1.exclusions.length then s1.raise .exclusionFull
    else s1.enterExclusion h w

/-- LEARNING_TAKE_RECORD (R29 to R41). -/
def execLearningTakeRecord (s : State) : Host.Outcome State Fault Refusal := .next s.takeRecord

/-- LEARNING_OPERATION (R62 to R72, R114 to R116). -/
def execLearningOperation (s : State) : Host.Outcome State Fault Refusal := .next s.grantLearning

/-- AUTO_EXCLUSION (R149). -/
def execAutoExclusion (s : State) : Host.Outcome State Fault Refusal := .next s.takeAutoExclusion

end Sys2Proof.Machine
end

