-- ==== Sys2Proof/Machine/FeedForward.lean ====
section
/-! DEFINITION. The Feed-Forward Server: requests, judgement, the served value, replies and the port mark (07). -/

namespace Sys2Proof.Machine

/-- Whether the unit holds Reply Ready high (R124). -/
def State.replyReady (s : State) : Bool :=
  match s.ff.server with
  | .replying _ _ => true
  | .idle | .forming _ => false

/-- Cases 1 to 4 of the judgement of a request, in their order; none where the reply comes from the map (R128). -/
def State.judgeRequest (s : State) (q : FFRequest) : Option Reason :=
  if s.startup.unitState ≠ .ready then some .notReady
  else if s.settings.feedForward = false then some .hold
  else if s.settings.headsInstalled ≤ q.head.val then some .unconfigured
  else if s.settings.wedges ≤ q.wedge then some .outOfRange
  else none

/-- The reply of cases 1 to 4 (R128). -/
def plainReply (q : FFRequest) (reason : Reason) : FFReply where
  value := 0
  reason := reason
  offset := 0
  replaced := q.replaced
  injecting := false

/-- The target wedge (R130). -/
def targetWedge (wedges lead w : Nat) : Nat := (w + lead) % wedges

/-- The wedges before a wedge around the ring, nearest first (R132). -/
def ringBefore (wedges t : Nat) : List Nat :=
  (List.range (wedges - 1)).map fun i => (t + wedges - (i + 1)) % wedges

/-- The wedges after a wedge around the ring, nearest first (R132). -/
def ringAfter (wedges t : Nat) : List Nat :=
  (List.range (wedges - 1)).map fun i => (t + (i + 1)) % wedges

/-- The first wedge of a list whose cell is not Excluded. -/
def State.firstGood (s : State) (h : Head) (ws : List Nat) : Option Nat :=
  ws.find? fun w => decide ((s.cell h w).state ≠ .excluded)

/-- The base value around an Excluded target: the rounded mean of the nearest good wedges before and after it; 0 where every
wedge of the head is Excluded (R132, R133). -/
def State.interpolate (s : State) (h : Head) (t : Nat) : Int :=
  match s.firstGood h (ringBefore s.settings.wedges t), s.firstGood h (ringAfter s.settings.wedges t) with
  | some b, some a => rounded ((s.cell h b).published + (s.cell h a).published) 2
  | _, _ => 0

/-- The base value and the reason code for a target (R131). -/
def State.baseValue (s : State) (h : Head) (t : Nat) : Int × Reason :=
  if (s.cell h t).state = .excluded then (s.interpolate h t, .interpolated) else ((s.cell h t).published, .normal)

/-- The step the Run Controller injects on a head, or none (R112, R135). -/
def State.injection (s : State) (h : Head) : Option Int :=
  match s.runs.active with
  | none => none
  | some ctx =>
    if ctx.heads.get h then
      match ctx.injection with
      | .off => none
      | .plus => some ctx.desc.step
      | .minus => some (-(ctx.desc.step : Int))
    else none

/-- Steps 3 to 6 of the composition on a base value: offset split, injection, clamp, polarity (R134 to R137). -/
def servedValue (p : Profile) (inj : Option Int) (cmax : Nat) (base : Int) : Int :=
  let v := clampCorr cmax ((if p.offsetSplit then base - p.offset else base) + inj.getD 0)
  if p.inverted then -v else v

/-- The reply composed from the map (R129 to R137). -/
def State.composeReply (s : State) (q : FFRequest) : FFReply :=
  let p := s.profile q.head
  let b := s.baseValue q.head (targetWedge s.settings.wedges p.lead q.wedge)
  { value := servedValue p (s.injection q.head) s.settings.cmax b.1
    reason := b.2
    offset := if p.offsetSplit then p.offset else 0
    replaced := q.replaced
    injecting := (s.injection q.head).isSome }

/-- The server's state replaced. -/
def State.setServer (s : State) (x : FFState) : State := { s with ff := { s.ff with server := x } }

/-- A request in service judged at its arrival: answered at once in cases 1 to 4, Forming with a claim at the Map Arbiter
otherwise (R125, R128). -/
def State.serveRequest (s : State) (q : FFRequest) : State :=
  match s.judgeRequest q with
  | some reason => s.setServer (.replying (plainReply q reason) false)
  | none => s.setServer (.forming q)

/-- A request word on the port. Whatever request was outstanding is withdrawn, the port mark is set and the count of reply
words restarts; a request for a head of this unit goes into service, with Replaced from the port mark it found (R125), and
one for another unit's head leaves the server Idle (R127). -/
def State.takeRequest (s : State) (w : Word) : State :=
  let s1 := { s with ff := { s.ff with server := .idle, portMark := true, wordsTaken := 0 } }
  if unitOf (globalHead w) = s.startup.unitNo.val then
    s1.serveRequest { head := localHead (globalHead w), wedge := wedgeField w, replaced := s.ff.portMark }
  else s1

/-- A granted Feed-Forward Server operation: the request is judged again, and its reply formed (R129). -/
def State.formReply (s : State) : State :=
  match s.ff.server with
  | .idle | .replying _ _ => s
  | .forming q =>
    match s.judgeRequest q with
    | some reason => s.setServer (.replying (plainReply q reason) false)
    | none => s.setServer (.replying (s.composeReply q) false)

/-- One more reply word taken on the port; the second clears the port mark (R127). -/
def FFServer.countWord (f : FFServer) : FFServer :=
  { f with wordsTaken := f.wordsTaken + 1, portMark := if f.wordsTaken + 1 = 2 then false else f.portMark }

/-- A reply strobe: it takes the next word of the reply this unit holds (R126), or of the other unit's, which this unit
counts (R127); with no reply on the port it is ignored and the port shows 0 (R126, R204). -/
def State.replyStrobe (s : State) (otherReady : Bool) : State :=
  match s.ff.server with
  | .replying r false => { s with ff := { s.ff.countWord with server := .replying r true, out := some r.word1 } }
  | .replying r true => { s with ff := { s.ff.countWord with server := .idle, out := some r.word2 } }
  | .idle | .forming _ =>
    if otherReady then { s with ff := { s.ff.countWord with out := none } }
    else { s with ff := { s.ff with out := some 0 } }

/-- FF_REQUEST (R123, R125, R127, R128). -/
def execFfRequest (w : Word) (s : State) : Host.Outcome State Fault Refusal := .next (s.takeRequest w)

/-- FF_OPERATION (R129 to R137). -/
def execFfOperation (s : State) : Host.Outcome State Fault Refusal := .next s.formReply

/-- FF_REPLY_STROBE (R126, R127). -/
def execFfReplyStrobe (otherReady : Bool) (s : State) : Host.Outcome State Fault Refusal :=
  .next (s.replyStrobe otherReady)

/-- Feed-Forward On (R139). -/
def State.cmdFeedForwardOn (s : State) : State :=
  s.judged fun s => State.accept { s with settings := { s.settings with feedForward := true } }

/-- Feed-Forward Off (R140): an active run is aborted (R101). -/
def State.cmdFeedForwardOff (s : State) : State :=
  s.judged fun s =>
    State.accept (State.endRun { s with settings := { s.settings with feedForward := false } } .aborted .feedForwardOff)

end Sys2Proof.Machine
end

