-- ==== Sys2Proof/Machine/Runs.lean ====
section
/-! DEFINITION. The Run Controller: run start, the step at an index, gain computation, retry and conclusion (05, 06), and
the commands on runs and their results. -/

namespace Sys2Proof.Machine

/-! ### Starting a run -/

/-- Whether the start conditions hold (R87). -/
def State.canStart (s : State) : Bool :=
  s.runs.active.isNone && !s.runs.queue.isEmpty && decide (s.runs.results.length < Config.resultQueueDepth)
    && decide (s.startup.unitState = .ready) && s.settings.feedForward && s.sweep.isNone

/-- The heads of a descriptor without an import fault: the run's heads (R88). -/
def State.runHeads (s : State) (d : Descriptor) : HeadSet :=
  PerHead.ofFn fun h => d.heads.get h && !(s.profile h).importFault

/-- The heads of a descriptor with an import fault: the skipped heads (R88). -/
def State.skippedHeads (s : State) (d : Descriptor) : HeadSet :=
  PerHead.ofFn fun h => d.heads.get h && (s.profile h).importFault

/-- The writes of ResetCells on one cell (R91). -/
def Cell.resetLearn (perm : Permission) (c : Cell) : Cell :=
  if c.state = .excluded then c
  else
    { c with
      working := if perm.wc then 0 else c.working
      dirty := c.dirty || (perm.wc && decide (c.working ≠ 0))
      state := if perm.cs then .learning else c.state }

/-- The run-start preparation of one cell (R90, R91). -/
def Cell.prepared (rev : Rev) (reset : Bool) (perm : Permission) (c : Cell) : Cell :=
  { (if reset then c.resetLearn perm else c) with effRev := rev, lastStamp := none }

/-- The context of a run at its start (R89, R93, R112). -/
def State.startContext (s : State) (d : Descriptor) : RunCtx where
  desc := d
  heads := s.runHeads d
  skipped := s.skippedHeads d
  depth := s.settings.depth
  phase := if d.kind = .gain then .plusSettle else .settle
  settleCounter := d.settle + 1
  injection := if d.kind = .gain then .plus else .off
  serial := s.runs.serial

/-- The preparation of the run heads and the start of the run and of the index timer (R90). -/
def State.beginRun (s : State) (d : Descriptor) : State :=
  let heads := s.runHeads d
  { s with
    map := updateRows s.map heads.get fun h =>
      belowW s.settings.wedges
        (Cell.prepared s.index.rev (decide (d.kind = .learn) && d.resetCells) (s.perms.learning.get h))
    profiles := updateProfiles s.profiles fun h p => if heads.get h then { p with autoPublish := true } else p
    index := { s.index with timer := some s.settings.indexTimeout }
    runs := { s.runs with active := some (s.startContext d), serial := s.runs.serial + 1 } }

/-- A run starts from the oldest descriptor when the start conditions hold; with no head left it concludes at once as
Faulted, NoHeads (R87, R88). -/
def State.startRun (s : State) : State :=
  if s.canStart then
    match s.runs.queue with
    | [] => s
    | d :: rest =>
      let s1 := { s with runs := { s.runs with queue := rest } }
      if (s1.runHeads d).toList = [] then s1.conclude (s1.startContext d) .faulted .noHeads (PerHead.all .none)
      else s1.beginRun d
  else s

/-! ### The step at an index -/

/-- The run in its context with the context replaced. -/
def State.setRun (s : State) (ctx : RunCtx) : State := { s with runs := { s.runs with active := some ctx } }

/-- A settle phase's counter stepped at the index that begins r; the index that brings it to 0 begins the collect phase
(R93). -/
def RunCtx.stepSettle (c : RunCtx) (next : Phase) (r : Rev) : RunCtx :=
  if c.settleCounter ≤ 1 then
    { c with phase := next, settleCounter := 0, collectStart := some r, phaseRevs := 0 }
  else { c with settleCounter := c.settleCounter - 1 }

/-- A settle phase that begins at the index that begins r: its revolutions are whole, and with none the collect phase
begins there (R93). The phase revolutions are 0 from here on: R95 sets them so on a retry, and in MINUS_SETTLE, where R111 sets
them only on leaving it, that is the model's choice (log 30, DESIGN CHOICE). The collect start revolution of a settle phase, for
which R89 gives no value, is that of the collect phase before it, the model's choice too (log 30). -/
def RunCtx.settleAtIndex (c : RunCtx) (wait next : Phase) (r : Rev) : RunCtx :=
  if c.desc.settle = 0 then
    { c with phase := next, settleCounter := 0, collectStart := some r, phaseRevs := 0 }
  else { c with phase := wait, settleCounter := c.desc.settle, phaseRevs := 0 }

/-- One collect revolution counted (R94, R96, R111). -/
def RunCtx.countRev (c : RunCtx) : RunCtx :=
  { c with phaseRevs := c.phaseRevs + 1, collectRevs := c.collectRevs + 1 }

/-- The convergence test: every cell of wedges 0..W−1 of every run head that is neither Excluded nor Suspect is Converged
(R94). -/
def State.converged (s : State) (ctx : RunCtx) : Bool :=
  allHeads.all fun h => !ctx.heads.get h || (List.range s.settings.wedges).all fun w =>
    decide ((s.cell h w).state = .excluded) || decide ((s.cell h w).state = .suspect)
      || decide ((s.cell h w).state = .converged)

/-- The clearing of one cell on a retry (R95). -/
def Cell.retried (cs : Bool) (c : Cell) : Cell :=
  { c with sum := 0, count := 0, outliers := if cs && decide (c.state ≠ .suspect) then 0 else c.outliers }

/-- A LEARN run retries at the index that begins r (R95). -/
def State.retry (s : State) (ctx : RunCtx) (r : Rev) : State :=
  State.setRun
    { s with map := updateRows s.map ctx.heads.get fun h _ => Cell.retried (s.perms.learning.get h).cs }
    (RunCtx.settleAtIndex { ctx with retries := ctx.retries + 1 } .settle .collect r)

/-- A LEARN run in COLLECT at an index: the convergence test, then the budget (R94, R95). -/
def State.learnIndex (s : State) (ctx : RunCtx) (r : Rev) : State :=
  let c := ctx.countRev
  if s.converged c then s.conclude c .complete .none (PerHead.all .none)
  else if c.phaseRevs < c.desc.budget then s.setRun c
  else if c.desc.noRetry = false ∧ c.retries < s.settings.retryLimit then s.retry c r
  else s.conclude c .exhausted .none (PerHead.all .none)

/-- A VERIFY run in COLLECT at an index: it concludes Complete at the D-th (R96). -/
def State.verifyIndex (s : State) (ctx : RunCtx) : State :=
  let c := ctx.countRev
  if c.phaseRevs < c.depth then s.setRun c else s.conclude c .complete .none (PerHead.all .none)

/-- The gain computation of one head (R117). -/
def gainOf (wedges m step gain : Nat) (p : PhaseSums) : GainResult :=
  if 2 * p.plusCount < wedges * m ∨ 2 * p.minusCount < wedges * m then .insufficient
  else
    let diff := rounded p.plusSum p.plusCount - rounded p.minusSum p.minusCount
    if diff ≤ 0 then .nonPositiveStep
    else
      let g := rounded ((gain : Int) * (2 * step)) diff.toNat
      if g < 8192 ∨ 32767 < g then .gainRange else .gain g.toNat

/-- The results of the gain computation, head by head; none for a head that is no run head (R117). -/
def State.gainResults (s : State) (ctx : RunCtx) : PerHead GainResult :=
  PerHead.ofFn fun h =>
    if ctx.heads.get h then
      gainOf s.settings.wedges ctx.desc.phaseRevs ctx.desc.step (s.profile h).gain (ctx.sums.get h)
    else .none

/-- A computed gain becomes the head's pending gain; a fault leaves the profile as it is (R118). -/
def Profile.takeGain (p : Profile) : GainResult → Profile
  | .gain g => { p with pendingGain := some g }
  | .none | .insufficient | .nonPositiveStep | .gainRange => p

/-- A computed gain replaces the pending gain that the index found, so a publication of the head that is still to come at this
index takes no gain and leaves the new one pending (R75, R77). -/
def DueHead.takeGain (d : DueHead) : GainResult → DueHead
  | .gain _ => { d with gainFound := false }
  | .none | .insufficient | .nonPositiveStep | .gainRange => d

/-- The end of MINUS_COLLECT: the injection is removed, the gains are computed and used, and the run concludes Complete
(R111, R117, R118). -/
def State.concludeGain (s : State) (ctx : RunCtx) : State :=
  let gains := s.gainResults ctx
  State.conclude
    { s with
      profiles := updateProfiles s.profiles fun h p => p.takeGain (gains.get h)
      publishing := s.publishing.map fun d => d.takeGain (gains.get d.head) }
    { ctx with injection := .off } .complete .none gains

/-- A GAIN run in PLUS_COLLECT at the index that begins r (R111, R112). -/
def RunCtx.plusIndex (ctx : RunCtx) (r : Rev) : RunCtx :=
  let c := ctx.countRev
  if c.phaseRevs < c.desc.phaseRevs then c
  else RunCtx.settleAtIndex { c with injection := .minus } .minusSettle .minusCollect r

/-- A GAIN run in MINUS_COLLECT at an index (R111). -/
def State.minusIndex (s : State) (ctx : RunCtx) : State :=
  let c := ctx.countRev
  if c.phaseRevs < c.desc.phaseRevs then s.setRun c else s.concludeGain c

/-- The Run Controller takes the index that begins r (R92, R111). -/
def State.runIndex (s : State) (r : Rev) : State :=
  match s.runs.active with
  | none => s
  | some ctx =>
    match ctx.phase with
    | .settle => s.setRun (ctx.stepSettle .collect r)
    | .collect => if ctx.desc.kind = .verify then s.verifyIndex ctx else s.learnIndex ctx r
    | .plusSettle => s.setRun (ctx.stepSettle .plusCollect r)
    | .plusCollect => s.setRun (ctx.plusIndex r)
    | .minusSettle => s.setRun (ctx.stepSettle .minusCollect r)
    | .minusCollect => s.minusIndex ctx

/-! ### Commands on runs -/

/-- The descriptor of the seven words of Enqueue Run, clamped, its head set reduced against HeadsInstalled (R83, 12.5). -/
def descriptorOf (headsInstalled : Nat) (kind : RunKind) (w1 w2 w3 w4 w5 w6 w7 : Word) : Descriptor where
  tag := field w1 0 8
  kind := kind
  heads := PerHead.ofFn fun h => (HeadSet.ofWord w2).get h && decide (h.val < headsInstalled)
  track := w3
  settle := clampNat 0 15 w4.toNat
  budget := clampNat 1 1023 w5.toNat
  noRetry := w2.getLsbD 8
  autoExclude := w2.getLsbD 9
  resetCells := w2.getLsbD 10
  step := clampNat 16 256 w6.toNat
  phaseRevs := clampNat 1 16 w7.toNat

/-- Enqueue Run (R84). -/
def State.cmdEnqueueRun (w1 w2 w3 w4 w5 w6 w7 : Word) (s : State) : State :=
  s.judged fun s =>
    match RunKind.ofWord w1 with
    | none => s.refuse .badParameter
    | some kind =>
      let d := descriptorOf s.settings.headsInstalled kind w1 w2 w3 w4 w5 w6 w7
      if d.heads.toList = [] then s.refuse .badParameter
      else if Config.runQueueDepth ≤ s.runs.queue.length then s.refuse .queueFull
      else State.accept { s with runs := { s.runs with queue := s.runs.queue ++ [d] } }

/-- Cancel Queued (R86). -/
def State.cmdCancelQueued (tag : Word) (s : State) : State :=
  s.judged fun s =>
    if s.runs.queue.any (fun d => decide (d.tag = field tag 0 8)) then
      State.accept { s with runs := { s.runs with queue := s.runs.queue.filter fun d => decide (d.tag ≠ field tag 0 8) } }
    else s.refuse .notFound

/-- Halt Run (R100). -/
def State.cmdHaltRun (s : State) : State :=
  s.judged fun s =>
    if s.runs.active.isSome then State.accept (s.endRun .aborted .haltRun) else s.refuse .notFound

/-- Take Result (R108). -/
def State.cmdTakeResult (s : State) : State :=
  s.judged fun s =>
    match s.runs.results with
    | [] => s.refuse .noResult
    | r :: _ => s.accept.startStream .result r.words

/-- RUN_START (R87 to R91). -/
def execRunStart (s : State) : Host.Outcome State Fault Refusal := .next s.startRun

end Sys2Proof.Machine
end

