-- ==== Sys2Proof/Machine/Index.lean ====
section
/-! DEFINITION. The index: the revolution count and the index timer (03), the Publication Unit (04), and the expiry of the
index timer. -/

namespace Sys2Proof.Machine

/-- Whether a head is due for publication: configured, a mark set, its import fault clear (R74, R78). -/
def State.due (s : State) (h : Head) : Bool :=
  decide (h.val < s.settings.headsInstalled) && ((s.profile h).autoPublish || (s.profile h).publishPending)
    && !(s.profile h).importFault

/-- The publication of one cell at the index that begins r (R75, steps 1 and 2). -/
def Cell.publish (r : Rev) (c : Cell) : Cell :=
  { c with published := c.working, effRev := if c.dirty then r else c.effRev, dirty := false }

/-- The published offset at a publication: the rounded mean of the published corrections just written, which are the
working corrections, over the wedges that are not Excluded; 0 of none (R76). -/
def State.newOffset (s : State) (h : Head) : Int := meanOf ((s.goodWedges h).map fun w => (s.cell h w).working)

/-- The publication of a head's profile (R75, steps 3 to 5): the pending gain that was present when the index arrived, if it
still stands, becomes the gain, one made pending since stays pending (R77), and the publish pending mark is cleared if it was
set then. A Publish Now taken between the arrival and this publication, of a head whose mark was set at the arrival, finds the
mark set, and step 5 clears it here, though R74 and R80 would have the head published at the next index too: that it is
cleared is the model's choice (log 29). -/
def Profile.publish (d : DueHead) (offset : Int) (p : Profile) : Profile :=
  { p with
    offset := offset
    gain := if d.gainFound then p.pendingGain.getD p.gain else p.gain
    pendingGain := if d.gainFound then none else p.pendingGain
    publishPending := p.publishPending && !d.marked }

/-- What an index that begins r finds of a due head when it arrives (R74). -/
def State.dueHead (s : State) (r : Rev) (h : Head) : DueHead where
  head := h
  rev := r
  marked := (s.profile h).publishPending
  gainFound := (s.profile h).pendingGain.isSome

/-- The heads that an index beginning r finds due, in ascending order (R74). -/
def State.dueHeads (s : State) (r : Rev) : List DueHead := (allHeads.filter s.due).map (s.dueHead r)

/-- The publication of one due head, one operation over the W in force at it; a head then at or above HeadsInstalled is not
published (R74, R75). -/
def State.publishHead (s : State) (d : DueHead) : State :=
  if d.head.val < s.settings.headsInstalled then
    { s with
      map := updateRows s.map (fun h => decide (h = d.head)) fun _ => belowW s.settings.wedges (Cell.publish d.rev)
      profiles := s.profiles.modify d.head (Profile.publish d (s.newOffset d.head)) }
  else s

/-- The publication next in turn, if any is still to come (R74; log 29). It is made in every unit state: where a test has ended
in between and left the unit Failed, in which R203 has nothing published, that it is made all the same is the model's choice
(log 29). -/
def State.publishNext (s : State) : State :=
  match s.publishing with
  | [] => s
  | d :: rest => State.publishHead { s with publishing := rest } d

/-- Every publication still to come, in turn. -/
def State.publishAll (s : State) : State := s.publishing.foldl State.publishHead { s with publishing := [] }

/-- The Index Unit takes an index: the revolution count advances and a running timer restarts (R56, R59). -/
def State.advanceRev (s : State) : State :=
  { s with index :=
      { rev := s.index.rev + 1
        timer := if s.runs.active.isSome then some s.settings.indexTimeout else s.index.timer } }

/-- The Publication Unit takes an index: the first of the due heads are published, as many as the schedule says, and
the others are still to come (R74; log 29). -/
def State.publishDue (s : State) (due : List DueHead) : State :=
  let n := s.publishAtOnce.headD due.length
  (due.take n).foldl State.publishHead { s with publishing := due.drop n, publishAtOnce := s.publishAtOnce.tail }

/-- An index pulse, taken by the Index Unit, the Publication Unit, the Run Controller and the event flags (R56; log 6). The
publications of the index before it are done. -/
def State.takeIndex (s : State) : State :=
  let s0 := s.publishAll
  let r := s0.index.rev + 1
  State.raise (State.runIndex (s0.advanceRev.publishDue (s0.dueHeads r)) r) .revolution

/-- The index timer expires: the run is faulted SpindleLost and the SpindleLost flag is set (R60). -/
def State.timerExpiry (s : State) : State :=
  if s.index.timer.isSome ∧ s.runs.active.isSome then
    State.raise (s.endRun .faulted .spindleLost) .spindleLost
  else s

/-- INDEX_EVENT (R56, R74, R92). -/
def execIndexEvent (s : State) : Host.Outcome State Fault Refusal := .next s.takeIndex

/-- INDEX_TIMER_EXPIRY (R60). -/
def execIndexTimerExpiry (s : State) : Host.Outcome State Fault Refusal := .next s.timerExpiry

end Sys2Proof.Machine
end

