-- ==== Sys2Proof/Machine/Startup.lean ====
section
/-! DEFINITION. The Start-up Unit: power-on reset, the start-up test, the pair handshake and Self-Test (11). -/

namespace Sys2Proof.Machine

/-- The unit number of a strap level: 0 primary, 1 secondary (R196). -/
def unitOfStrap (strap : Bool) : Fin 2 := if strap then 1 else 0

/-- The pair watch as a test begins in a unit of a strap level, the presence recorded before it and the level of the PRES line
at its beginning: a secondary reports Secondary; a primary records Present at once where it finds the line asserted, and
otherwise opens its check over the presence it had, which is Unknown in a unit that was a secondary (R189, R200; log 18,
log 20). -/
def Startup.watch (u : Startup) (strap : Bool) (before : Presence) (line : Bool) : Startup :=
  { u with
    presence :=
      if strap then .secondary else if line then .present else if before = .secondary then .unknown else before
    checkOpen := !strap && !line
    verdict := .waiting
    presLine := line
    passOut := false }

/-- The unit at the end of power-on reset with the strap at a level: every state takes its power-on value, and a start-up
test begins (R196). The PRES line that a primary watches is the other unit's to drive, and a unit that was a secondary leaves it
undriven (R199; log 19); the queue of steps, the schedule of publications and the order of auto-exclusions are not the
part's (log 1, log 13, log 29). -/
def State.powerOn (s : State) (strap : Bool) : State :=
  { State.reset with
    startup :=
      Startup.watch { State.reset.startup with unitNo := unitOfStrap strap, strap := strap } strap .unknown
        (!strap && decide (s.startup.unitNo = 0) && s.startup.presLine)
    publishAtOnce := s.publishAtOnce
    autoOrder := s.autoOrder
    pending := s.pending }

/-- The code of a test that ends (R201). -/
def testCodeOf (own : MemoryResult) (v : PairVerdict) : Nat := memoryCode own + (if v = .failed then 0x80 else 0)

/-- What the test in flight has found in the memory, if its last phase but the pair's has ended. -/
def TestPhase.ended : TestPhase → Option MemoryResult
  | .swept own => Option.some own
  | .none | .memoryTest | .sweeping _ => Option.none

/-- Whether the pair leaves nothing to wait for: in a secondary, or in a primary whose presence check has recorded its
secondary Absent, or Present with the wait for Passed judged (R200). -/
def Startup.pairSettled (u : Startup) : Bool :=
  !u.checkOpen && (decide (u.presence ≠ .present) || decide (u.verdict ≠ .waiting))

/-- The end of a start-up test (R201): its code is recorded, the unit becomes Ready or Failed, a unit that becomes Failed
loses its Run Queue and publish pending marks, a secondary that passes asserts Passed, and StartupDone is set. A publication that an
index made due before it is not withheld in a unit that becomes Failed (R74 against R203: the model's choice, log 29). -/
def State.finishTest (s : State) (own : MemoryResult) : State :=
  let pass := decide (own = .pass)
  { s with
    startup := { s.startup with
      unitState := if pass then .ready else .failed
      testCode := testCodeOf own s.startup.verdict
      phase := .none
      passOut := s.startup.passOut || (pass && decide (s.startup.unitNo = 1)) }
    runs := { s.runs with queue := if pass then s.runs.queue else [] }
    profiles := if pass then s.profiles else updateProfiles s.profiles fun _ p => { p with publishPending := false }
    bench := { s.bench with flags := s.bench.flags.add .startupDone } }

/-- The test ends when its last phase has ended (R196, R200). -/
def State.endTestIfDone (s : State) : State :=
  match s.startup.phase.ended with
  | some own =>
    if s.startup.unitState = .starting ∧ s.startup.pairSettled = true then s.finishTest own else s
  | none => s

/-- A start-up test begins: the strap is read, the pair watch starts afresh, and after a memory fault the named memories
take their power-on values (R196, R197, R199, R200). A unit that changes its number drives and sees PRES released: the one it
drove as a secondary it no longer drives (R199), and as a new secondary it has not asserted it yet (log 32, DESIGN CHOICE). -/
def State.beginTest (s : State) : State :=
  let u := s.startup
  let s1 := { s with
    startup :=
      Startup.watch
        { u with unitState := .starting, unitNo := unitOfStrap u.strap, phase := .memoryTest, powerOnTest := false }
        u.strap u.presence (decide (u.unitNo = unitOfStrap u.strap) && u.presLine) }
  if u.memoryFault then
    { s1 with
      map := PerHead.all []
      runs := { s1.runs with queue := [], results := [] }
      exclusions := []
      perms := {}
      profiles := PerHead.all {} }
  else s1

/-- What Self-Test does after its command word has acted (R202, steps 2 to 5): the stream ends, the run is aborted and the
Run Queue emptied, a sweep is abandoned, the FIFO is emptied, the pointer returns to the window's start and a test
begins. -/
def State.cmdSelfTest (s : State) : State :=
  let s1 := State.endRun { s with bench := { s.bench with stream := none } } .aborted .selfTest
  let s2 :=
    { s1 with
      runs := { s1.runs with queue := [] }
      sweep := none
      capture := { s1.capture with fifo := [] }
      profiles := updateProfiles s1.profiles fun _ p => { p with pendingGain := none }
      bench := s1.bench.resetPointer }
  s2.beginTest.accept

/-- The strap pin at a level. -/
def State.setStrap (s : State) (strap : Bool) : State := { s with startup := { s.startup with strap := strap } }

/-- The preparation of the map for a sweep of every cell (R198). -/
def State.prepareMap (s : State) : State :=
  { s.emptyExclusions with
    profiles := updateProfiles s.profiles fun _ p =>
      { p with offset := 0, importFault := false, publishPending := false, pendingGain := none } }

/-- A sweep of the whole grid (R25, R26). -/
def gridSweep (kind : SweepKind) : Sweep where
  kind := kind
  firstHead := 0
  lastHead := 7
  firstWedge := 0
  lastWedge := Config.gridWedges - 1
  nextHead := 0
  nextWedge := 0

/-- The memory test ends: what it found is kept, the map is prepared and the sweep of the whole grid starts (R197,
R198). -/
def State.endMemoryTest (s : State) (own : MemoryResult) : State :=
  if s.startup.unitState = .starting ∧ s.startup.phase = .memoryTest then
    { s.prepareMap with
      sweep := some (gridSweep (if s.startup.powerOnTest then .powerOn else .selfTest))
      startup := { s.startup with phase := .sweeping own, memoryFault := decide (own ≠ .pass) } }
  else s

/-- Whether a primary's presence check is open (R200). -/
def Startup.checking (u : Startup) : Bool :=
  decide (u.unitNo = 0) && decide (u.unitState = .starting) && u.checkOpen

/-- The primary records its secondary Present or Absent, and the check ends (R200). -/
def State.recordPresence (s : State) (p : Presence) : State :=
  State.endTestIfDone { s with startup := { s.startup with presence := p, checkOpen := false } }

/-- The PRES line at a level. -/
def State.setPresLine (s : State) (level : Bool) : State :=
  { s with startup := { s.startup with presLine := level } }

/-- Present is asserted: by this unit, if it is a secondary; by the other unit, if it is a primary, which records it at once
while its presence check is open (R199, R200; log 18). -/
def State.assertPresent (s : State) : State :=
  if s.startup.checking then State.recordPresence (s.setPresLine true) .present else s.setPresLine true

/-- The primary sees Present within the presence window (R200). -/
def State.seePresent (s : State) : State :=
  if s.startup.checking then State.recordPresence (s.setPresLine true) .present else s

/-- The presence window closes: the secondary is recorded Absent, unless Present stands asserted (R200; log 18). -/
def State.closePresence (s : State) : State :=
  if s.startup.checking then s.recordPresence (if s.startup.presLine then .present else .absent) else s

/-- Whether a primary waits for Passed, or may yet come to: the test is in flight, no verdict has been reached, and the
secondary is recorded Present or not recorded yet (R200; log 17). -/
def Startup.awaitsPassed (u : Startup) : Bool :=
  decide (u.unitNo = 0) && decide (u.unitState = .starting) && decide (u.verdict = .waiting)
    && (u.checkOpen || decide (u.presence = .present))

/-- The primary sees Passed rise within its wait: the pair passes (R200). -/
def State.seePassed (s : State) : State :=
  if s.startup.awaitsPassed then
    State.endTestIfDone { s with startup := { s.startup with verdict := .passed } }
  else s

/-- The wait for Passed runs out: the pair fails and PairFault is set (R200). -/
def State.pairTimeout (s : State) : State :=
  if s.startup.awaitsPassed ∧ s.startup.checkOpen = false then
    State.endTestIfDone (State.raise { s with startup := { s.startup with verdict := .failed } } .pairFault)
  else s

/-- POWER_ON_RESET (R196). -/
def execPowerOnReset (strap : Bool) (s : State) : Host.Outcome State Fault Refusal := .next (s.powerOn strap)

/-- MEMORY_TEST_END (R197, R198). -/
def execMemoryTestEnd (result : MemoryResult) (s : State) : Host.Outcome State Fault Refusal :=
  .next (s.endMemoryTest result)

/-- SECONDARY_PRESENT_ASSERT (R199). -/
def execSecondaryPresentAssert (s : State) : Host.Outcome State Fault Refusal := .next s.assertPresent

/-- PRESENT_RELEASE (R199): the line falls. -/
def execPresentRelease (s : State) : Host.Outcome State Fault Refusal := .next (s.setPresLine false)

/-- PRESENT_SEEN (R200). -/
def execPresentSeen (s : State) : Host.Outcome State Fault Refusal := .next s.seePresent

/-- PRESENCE_WINDOW_EXPIRY (R200). -/
def execPresenceWindowExpiry (s : State) : Host.Outcome State Fault Refusal := .next s.closePresence

/-- PASSED_SEEN (R200). -/
def execPassedSeen (s : State) : Host.Outcome State Fault Refusal := .next s.seePassed

/-- PAIR_WAIT_EXPIRY (R200). -/
def execPairWaitExpiry (s : State) : Host.Outcome State Fault Refusal := .next s.pairTimeout

end Sys2Proof.Machine
end

