-- ==== Sys2Proof/Machine/Sweeps.lean ====
section
/-! DEFINITION. The Sweep Engine: one cell of a sweep, the end of a sweep, Fill, and Set Geometry (01). -/

namespace Sys2Proof.Machine

/-- A Fill at one cell (R27, R158): the value where the Sweep writer holds WC, the state where it holds CS and the cell is
not Excluded, the sum and count emptied, the dirty mark set where the working correction changed. The value is the one clamped
when the command was taken, as R27 says; that a Cmax set since does not clamp it again, as R7 and R191 have it, is the model's
choice (log 33). -/
def Cell.fill (perm : Permission) (value : Int) (loaded : Bool) (c : Cell) : Cell :=
  let new := if perm.wc then value else c.working
  { c with
    working := new
    dirty := c.dirty || decide (new ≠ c.working)
    state := if perm.cs && decide (c.state ≠ .excluded) then (if loaded then .loaded else .empty) else c.state
    sum := 0
    count := 0 }

/-- A geometry, self-test or power-on sweep at one cell (R25, R26). -/
def Cell.swept (rev : Rev) (c : Cell) : Cell where
  working := 0
  published := 0
  state := if c.state = .excluded then .excluded else .empty
  outliers := 0
  sum := 0
  count := 0
  dirty := false
  effRev := rev
  lastStamp := none

/-- What a sweep writes at one cell of a head. -/
def State.sweepCell (s : State) (kind : SweepKind) (h : Head) (c : Cell) : Cell :=
  match kind with
  | .fill v loaded => c.fill (s.perms.sweep.get h) v loaded
  | .geometry | .selfTest | .powerOn => c.swept s.index.rev

/-- The sweep moved to the next cell of its range, head by head and within each head wedge by wedge; none after the last
(R24). -/
def Sweep.advance (w : Sweep) : Option Sweep :=
  if w.nextWedge < w.lastWedge then some { w with nextWedge := w.nextWedge + 1 }
  else if w.nextHead.val < w.lastHead.val then
    some { w with nextHead := headAfter w.nextHead, nextWedge := w.firstWedge }
  else none

/-- Whether a Fill's range covered wedges 0..W−1 of a head (R28). -/
def Sweep.covers (w : Sweep) (wedges : Nat) (h : Head) : Bool :=
  decide (w.firstHead.val ≤ h.val) && decide (h.val ≤ w.lastHead.val) && decide (w.firstWedge = 0)
    && decide (wedges ≤ w.lastWedge + 1)

/-- The end of a sweep: a Fill clears the import fault of the heads it covered (R28); the sweep of a start-up test ends that
phase of the test (R198). No sweep writes a published offset at its end: one that a publication formed while the sweep was in
flight (R80, R76) stands after it, the model's choice against R82 and R76's law, which have it 0 since the last sweep (log 34). -/
def State.endSweep (s : State) (w : Sweep) : State :=
  let s1 := { s with sweep := none }
  match w.kind with
  | .fill _ _ =>
    { s1 with profiles := updateProfiles s.profiles fun h p =>
        if w.covers s.settings.wedges h then { p with importFault := false } else p }
  | .geometry => s1
  | .selfTest | .powerOn =>
    match s.startup.phase with
    | .sweeping own => State.endTestIfDone { s1 with startup := { s.startup with phase := .swept own } }
    | .none | .memoryTest | .swept _ => s1

/-- Whether any claimant ahead of the Sweep Engine waits at the Map Arbiter (R19). -/
def State.othersWaiting (s : State) : Bool := s.ffWaiting || s.held.isSome || s.streamReadWaiting

/-- The Sweep Engine is granted one cell of the sweep in flight, when no other claimant waits (R19, R24). -/
def State.sweepStep (s : State) : State :=
  match s.sweep with
  | none => s
  | some w =>
    if s.othersWaiting then s
    else
      let s1 := s.modifyCell w.nextHead w.nextWedge (s.sweepCell w.kind w.nextHead)
      match w.advance with
      | some w' => { s1 with sweep := some w' }
      | none => s1.endSweep w

/-- SWEEP_STEP (R24 to R28). -/
def execSweepStep (s : State) : Host.Outcome State Fault Refusal := .next s.sweepStep

/-- Whether the access window includes a head of the active run (R27). -/
def State.windowMeetsRun (s : State) : Bool :=
  match s.runs.active with
  | none => false
  | some ctx => allHeads.any fun h =>
      ctx.heads.get h && decide (s.bench.window.firstHead.val ≤ h.val) && decide (h.val ≤ s.bench.window.lastHead.val)

/-- The sweep of an accepted Fill: its range is the access window, its value clamped to ±Cmax as Cmax stands now, at the taking of
the command (R27). R7 and R191 would clamp each write with Cmax as it stands there; that the model follows R27 alone is its choice
(log 33). -/
def State.fillSweep (s : State) (value state : Word) : Sweep where
  kind := .fill (clampCorr s.settings.cmax value.toInt) (decide (state = 1))
  firstHead := s.bench.window.firstHead
  lastHead := s.bench.window.lastHead
  firstWedge := s.bench.window.firstWedge
  lastWedge := s.bench.window.lastWedge
  nextHead := s.bench.window.firstHead
  nextWedge := s.bench.window.firstWedge

/-- Fill (R27). -/
def State.cmdFill (value state : Word) (s : State) : State :=
  s.judged fun s =>
    if s.startup.unitState = .starting then s.refuse .busy
    else if 1 < state.toNat then s.refuse .badParameter
    else if s.sweep.isSome then s.refuse .busy
    else if s.windowMeetsRun then s.refuse .busy
    else State.accept { s with sweep := some (s.fillSweep value state) }

/-- The immediate work of an accepted Set Geometry, and the start of its sweep (R18, R25, R52; log 24). -/
def State.applyGeometry (s : State) (heads wedges : Nat) : State :=
  let b : BenchLink := { s.bench with
    window := { firstHead := 0, lastHead := Fin.ofNat 8 (heads - 1), firstWedge := 0, lastWedge := wedges - 1 } }
  { s.emptyExclusions with
    settings := { s.settings with headsInstalled := heads, wedges := wedges }
    profiles := updateProfiles s.profiles fun _ p =>
      { p with offset := 0, importFault := false, publishPending := false, autoPublish := false, pendingGain := none }
    bench := b.resetPointer
    capture := { s.capture with fifo := [] }
    sweep := some (gridSweep .geometry) }

/-- Set Geometry (R18). -/
def State.cmdSetGeometry (heads wedges : Word) (s : State) : State :=
  s.judged fun s =>
    if s.startup.unitState = .starting then s.refuse .busy
    else if heads.toNat < 1 ∨ 8 < heads.toNat ∨ wedges.toNat < 32 ∨ 512 < wedges.toNat then s.refuse .badParameter
    else if s.runs.active.isSome ∨ s.runs.queue ≠ [] then s.refuse .busy
    else if s.sweep.isSome then s.refuse .busy
    else (s.applyGeometry heads.toNat wedges.toNat).accept

end Sys2Proof.Machine
end

