-- ==== Sys2Proof/Machine/MapAccess.lean ====
section
/-! DEFINITION. Windowed map access: the window and the access order, writes, reads and streams of the map, and the import
judgement (09). -/

namespace Sys2Proof.Machine

/-! ### The Bench Link's claim -/

/-- What the Map Arbiter grants before an operation of the Bench Link: the claim of the Feed-Forward Server that waits, and then
that of the Learning Engine (R19, R129; log 5). -/
def State.claimsAhead (s : State) : State := s.formReply.grantLearning

/-- The read that a Stream Map has claimed, if one waits, granted in its turn (R19, R172). Before a word of the link it is the read
claimed when the word arrives (R180), and the model takes a word's own step as its arrival, its choice (log 5). -/
def State.takeClaimedRead (s : State) : State :=
  if s.streamReadWaiting then s.claimsAhead.completeStreamRead else s

/-! ### Writing -/

/-- A data word written as a working correction (R165): where the Bench writer holds WC, the clamped value; where that
changes the cell, the dirty mark is set and the sum and count are emptied. -/
def Cell.benchWorking (cmax : Nat) (wc : Bool) (v : Int) (c : Cell) : Cell :=
  let new := clampCorr cmax v
  if wc && decide (new ≠ c.working) then { c with working := new, dirty := true, sum := 0, count := 0 } else c

/-- A Packed view data word (R165): a working correction, and an Empty cell turned Loaded where the Bench writer holds
CS. -/
def Cell.benchPacked (cmax : Nat) (perm : Permission) (v : Int) (c : Cell) : Cell :=
  let c1 := c.benchWorking cmax perm.wc v
  if perm.cs && decide (c1.state = .empty) then { c1 with state := .loaded } else c1

/-- A Record view status word (R166): where the Bench writer holds CS, the state it names, which an Excluded cell does not
take, and the outlier count emptied unless that state is Suspect. -/
def Cell.benchStatus (cs : Bool) (w : Word) (c : Cell) : Cell :=
  match CellState.ofStatus w with
  | none => c
  | some st =>
    if cs then
      let c1 := c.writeState st
      if st = .suspect then c1 else { c1 with outliers := 0 }
    else c

/-- A Bench Link write at a cell; aimed at an unconfigured cell it is ignored (R17). -/
def State.benchWrite (s : State) (h : Head) (w : Nat) (f : Cell → Cell) : State :=
  if s.configured h w then s.modifyCell h w f else s

/-- What a data word writes at a cell in the current view, by the word position of the pointer (R165, R166). -/
def State.dataWrite (s : State) (p : Pointer) (w : Word) (c : Cell) : Cell :=
  let perm := s.perms.bench.get p.head
  if s.bench.order.packed then c.benchPacked s.settings.cmax perm w.toInt
  else
    match p.pos with
    | 0 => c.benchWorking s.settings.cmax perm.wc w.toInt
    | 1 => c
    | _ => c.benchStatus perm.cs w

/-- The pointer after a data word: the next item in Packed view and after word 3 of a Record item, the next word position
otherwise (R161, R166). -/
def BenchLink.afterData (b : BenchLink) (p : Pointer) : Option Pointer :=
  if b.order.packed || decide (2 ≤ p.pos) then advancePointer b.window b.order p
  else some { p with pos := p.pos + 1 }

/-- A data word written at the item of the pointer, which then moves on (R165, R166). -/
def State.writeWord (s : State) (p : Pointer) (w : Word) : State :=
  let s1 := s.benchWrite p.head p.wedge (s.dataWrite p w)
  { s1 with bench := { s1.bench with pointer := s.bench.afterData p } }

/-- A data word written at the pointer in its turn at the Map Arbiter; past the end of the window it is ignored (R19, R169). -/
def State.writeAtPointer (s : State) (w : Word) : State :=
  match s.bench.pointer with
  | none => s
  | some p => s.claimsAhead.writeWord p w

/-- A head's import fault cleared by a matching import (R176). -/
def State.importMatch (s : State) (h : Head) : State :=
  s.modifyProfile h fun p => { p with importFault := false }

/-- A head's import fault set, with ImportMismatch, by an import that mismatches or is cut short (R176). -/
def State.importFail (s : State) (h : Head) : State :=
  State.raise (s.modifyProfile h fun p => { p with importFault := true }) .importMismatch

/-- The import's progress recorded in the taking-data state. -/
def State.setImport (s : State) (i : Import) : State :=
  { s with bench := { s.bench with assembly := .takingData (some i) } }

/-- A data word of a whole-head import (R176): the first W words are written as data, the next two are the CRC, at the
second of which the import is judged, and further words are ignored. -/
def State.importWord (s : State) (i : Import) (w : Word) : State :=
  match i.stage with
  | .data left crc =>
    (s.writeAtPointer w).setImport
      { i with stage := if left ≤ 1 then .crcLow (crcWord crc w) else .data (left - 1) (crcWord crc w) }
  | .crcLow crc => s.setImport { i with stage := .crcHigh crc w }
  | .crcHigh crc low =>
    let s1 := s.setImport { i with stage := .judged }
    if crcWords crc = [low, w] then s1.importMatch i.head else s1.importFail i.head
  | .judged => s

/-- A data word of a Write Map or Write Map Continue taking data (R167, R168, R176). -/
def State.dataWord (s : State) (imp : Option Import) (w : Word) : State :=
  match imp with
  | none => s.writeAtPointer w
  | some i => s.importWord i w

/-- The end of the taking-data state: an import not yet judged is missing its words (R176). -/
def State.endData (s : State) (imp : Option Import) : State :=
  match imp with
  | none => s
  | some i => if i.stage = .judged then s else s.importFail i.head

/-! ### Commands -/

/-- The window of four bounds, each clamped to the geometry (R159). -/
def windowOf (t : Settings) (fh lh fw lw : Word) : Window where
  firstHead := Fin.ofNat 8 (min fh.toNat (t.headsInstalled - 1))
  lastHead := Fin.ofNat 8 (min lh.toNat (t.headsInstalled - 1))
  firstWedge := min fw.toNat (t.wedges - 1)
  lastWedge := min lw.toNat (t.wedges - 1)

/-- Set Window (R159). -/
def State.cmdSetWindow (fh lh fw lw : Word) (s : State) : State :=
  s.judged fun s =>
    let win := windowOf s.settings fh lh fw lw
    if win.lastHead.val < win.firstHead.val ∨ win.lastWedge < win.firstWedge then s.refuse .badParameter
    else State.accept { s with bench := BenchLink.resetPointer { s.bench with window := win } }

/-- Set Access Order (R160). -/
def State.cmdSetAccessOrder (major direction view : Word) (s : State) : State :=
  s.judged fun s =>
    if 1 < major.toNat ∨ 1 < direction.toNat ∨ 1 < view.toNat then s.refuse .badParameter
    else
      State.accept { s with bench := BenchLink.resetPointer { s.bench with
        order := { headMajor := decide (major = 1), descending := decide (direction = 1), packed := decide (view = 1) } } }

/-- The judgement common to map access commands: NotReady, Streaming, then Busy while the unit is Starting or a sweep is in
flight (R167, R170). -/
def State.judgedAccess (s : State) (own : State → State) : State :=
  s.judged fun s => if s.busy then s.refuse .busy else own s

/-- Whether the window is one whole head walked in ascending order in Packed view (R175, R176). -/
def State.wholeHead (s : State) : Bool :=
  s.bench.order.packed && decide (s.bench.window.firstHead = s.bench.window.lastHead)
    && decide (s.bench.window.firstWedge = 0) && decide (s.bench.window.lastWedge + 1 = s.settings.wedges)
    && !s.bench.order.descending

/-- The import a Write Map is, if its window and view make it one (R176). -/
def State.importOf (s : State) : Option Import :=
  if s.wholeHead then some { head := s.bench.window.firstHead, stage := .data s.settings.wedges crcStart } else none

/-- Write Map (R167). -/
def State.cmdWriteMap (s : State) : State :=
  s.judgedAccess fun s =>
    State.accept { s with bench := { s.bench.resetPointer with assembly := .takingData s.importOf } }

/-- Write Map Continue (R168). -/
def State.cmdWriteMapContinue (s : State) : State :=
  s.judgedAccess fun s => State.accept { s with bench := { s.bench with assembly := .takingData none } }

/-- An item placed in the Return Queue at once: the words that find it full are lost, which sets ReturnLost; the pointer
advances (R170). -/
def State.placeItem (s : State) (p : Pointer) : State :=
  let ws := s.itemAt p
  let s1 := State.accept { s with bench := { s.bench with
    returnQueue := s.bench.returnQueue ++ roomFor s.bench.returnQueue ws
    pointer := advancePointer s.bench.window s.bench.order p } }
  if noRoomFor s.bench.returnQueue ws = [] then s1 else s1.raise .returnLost

/-- Read Map Item (R170): the item at the pointer is read in its turn at the Map Arbiter (R19). -/
def State.cmdReadMapItem (s : State) : State :=
  s.judgedAccess fun s =>
    match s.bench.pointer with
    | none => s.refuse .notFound
    | some p => s.claimsAhead.placeItem p

/-- Whether a Stream Map is a whole-head export (R175). -/
def State.isExport (s : State) (count : Word) : Bool :=
  s.wholeHead && decide (s.bench.pointer = windowStart s.bench.window s.bench.order)
    && (decide (count = 0) || decide (s.settings.wedges ≤ count.toNat))

/-- Stream Map (R172, R175): the first item is read in its turn at the Map Arbiter (R19). -/
def State.cmdStreamMap (count : Word) (s : State) : State :=
  s.judgedAccess fun s =>
    if s.bench.pointer.isNone then s.refuse .notFound
    else
      s.claimsAhead.accept.readStreamItem (if count = 0 then none else some count.toNat)
        (if s.isExport count then some crcStart else none)

/-- Halt Stream (R173): any stream in progress ends and the Return Queue is emptied. Taken also during a stream (R181). -/
def State.cmdHaltStream (s : State) : State :=
  if s.startup.unitState = .failed then s.refuse .notReady
  else State.accept { s with bench := { s.bench with stream := none, returnQueue := [] } }

/-- The read that a Stream Map has claimed is granted, unless a claim of the Feed-Forward Server or of the Learning Engine
waits, which the arbiter grants first (R19; log 5). -/
def State.grantStreamRead (s : State) : State := if s.ffWaiting || s.held.isSome then s else s.completeStreamRead

/-- STREAM_MAP_ITEM_READ (R172). -/
def execStreamMapItemRead (s : State) : Host.Outcome State Fault Refusal := .next s.grantStreamRead

end Sys2Proof.Machine
end

