-- ==== Sys2Proof/Machine/Settings.lean ====
section
/-! DEFINITION. The settings commands, Publish Now, the readouts, the event commands, Select Unit and Unit Reset (04,
10). -/

namespace Sys2Proof.Machine

/-- The settings with one written, brought into its range; none where the selector names no setting (R191, 12.5). -/
def Settings.write (t : Settings) (selector value : Nat) : Option Settings :=
  match selector with
  | 0 => some { t with depth := roundDepth value }
  | 1 => some { t with learnGain := clampNat 1 8 value }
  | 2 => some { t with threshold := clampNat 0 255 value }
  | 3 => some { t with outlierLimit := clampNat 16 1023 value }
  | 4 => some { t with suspectCount := clampNat 1 15 value }
  | 5 => some { t with cmax := clampNat 64 2047 value }
  | 6 => some { t with amin := clampNat 16 4095 value }
  | 7 => some { t with retryLimit := clampNat 0 3 value }
  | 8 => some { t with indexTimeout := clampNat 20 2000 value }
  | _ => none

/-- Set Setting (R191). -/
def State.cmdSetSetting (selector value : Word) (s : State) : State :=
  s.judged fun s =>
    match s.settings.write selector.toNat value.toNat with
    | none => s.refuse .badParameter
    | some t => State.accept { s with settings := t }

/-- Set Head Gain (R192, R14). -/
def State.cmdSetHeadGain (head gain : Word) (s : State) : State :=
  s.judged fun s =>
    match headParam head with
    | none => s.refuse .badParameter
    | some h => (s.modifyProfile h fun p => { p with gain := clampNat 8192 32767 gain.toNat }).accept

/-- Set Head Options (R192, R14). -/
def State.cmdSetHeadOptions (head lead polarity split : Word) (s : State) : State :=
  s.judged fun s =>
    match headParam head with
    | none => s.refuse .badParameter
    | some h =>
      if 1 < polarity.toNat ∨ 1 < split.toNat then s.refuse .badParameter
      else
        (s.modifyProfile h fun p =>
          { p with lead := clampNat 0 7 lead.toNat, inverted := decide (polarity = 1),
                   offsetSplit := decide (split = 1) }).accept

/-- Publish Now (R80). -/
def State.cmdPublishNow (heads : Word) (s : State) : State :=
  s.judged fun s =>
    let hs : HeadSet := PerHead.ofFn fun h => (HeadSet.ofWord heads).get h && decide (h.val < s.settings.headsInstalled)
    if hs.toList = [] then s.refuse .badParameter
    else
      State.accept { s with
        profiles := updateProfiles s.profiles fun h p => if hs.get h then { p with publishPending := true } else p }

/-- Read Monitor (R44). -/
def State.cmdReadMonitor (head : Word) (s : State) : State :=
  s.judged fun s =>
    match headParam head with
    | none => s.refuse .badParameter
    | some h => s.accept.startStream .copy (monitorWords h (s.profile h).monitor)

/-- The six words of Read Capture Counts (R55). -/
def State.captureCountWords (s : State) : List Word :=
  [wordOf s.capture.malformed, wordOf s.capture.unconfigured, wordOf s.capture.outOfRange, wordOf s.capture.overrun,
    wordOf s.capture.fifo.length, s.index.rev]

/-- Read Capture Counts (R55). -/
def State.cmdReadCaptureCounts (s : State) : State :=
  s.judged fun s => s.accept.startStream .copy s.captureCountWords

/-- The seven words of Read Identity (R189). -/
def State.identityWords (s : State) : List Word :=
  [Config.partCode, Config.revision, wordOf s.startup.unitNo.val, wordOf s.settings.headsInstalled,
    wordOf s.settings.wedges, wordOf s.startup.testCode, wordOf s.startup.presence.code]

/-- Read Identity (R189). -/
def State.cmdReadIdentity (s : State) : State :=
  s.judged fun s => s.accept.startStream .copy s.identityWords

/-- The 45 words of Read Settings (R190). -/
def State.settingsWords (s : State) : List Word :=
  s.settings.words ++ [s.bench.enables.word] ++ allHeads.flatMap fun h => (s.profile h).words

/-- Read Settings (R190). -/
def State.cmdReadSettings (s : State) : State :=
  s.judged fun s => s.accept.startStream .copy s.settingsWords

/-- Clear Events (R185). -/
def State.cmdClearEvents (kinds : Word) (s : State) : State :=
  s.judged fun s =>
    State.accept { s with bench := { s.bench with flags := s.bench.flags.minus (Kinds.ofWord kinds) } }

/-- Set Event Enables (R185): the flags of the kinds it turns on are cleared. -/
def State.cmdSetEventEnables (kinds : Word) (s : State) : State :=
  s.judged fun s =>
    let on := Kinds.ofWord kinds
    State.accept { s with bench := { s.bench with
      enables := on
      flags := s.bench.flags.minus (on.minus s.bench.enables) } }

/-- Select Unit (R187): taken in every unit state and during a stream. -/
def State.cmdSelectUnit (unit : Word) (s : State) : State :=
  if 1 < unit.toNat then s.refuse .badParameter
  else State.accept { s with bench := { s.bench with selected := Fin.ofNat 2 unit.toNat } }

/-- Null (R193): in a unit that is not Failed it changes nothing. -/
def State.cmdNull (s : State) : State :=
  if s.startup.unitState = .failed then s.refuse .notReady else s

/-- The immediate work of Unit Reset, in one operation (R194, R103). -/
def State.applyUnitReset (s : State) : State :=
  { s with
    map := updateRows s.map (fun _ => true) fun _ _ => Cell.clearSums
    profiles := updateProfiles s.profiles fun _ p =>
      { p with publishPending := false, autoPublish := false, pendingGain := none }
    capture := { s.capture with fifo := [], malformed := 0, unconfigured := 0, outOfRange := 0, overrun := 0 }
    index := { s.index with timer := none }
    held := none
    runs := { s.runs with queue := [], active := none, results := [] }
    bench := { s.bench.resetPointer with stream := none, returnQueue := [], flags := {} } }

/-- Unit Reset (R194): taken also during a stream and while a sweep is in flight. -/
def State.cmdUnitReset (s : State) : State :=
  if s.startup.unitState = .failed then s.refuse .notReady else s.applyUnitReset.accept

end Sys2Proof.Machine
end

