-- ==== Sys2Proof/Machine/Link.lean ====
section
/-! DEFINITION. The Bench Link's framing: what a command word ends, which unit acts on a word, the judgement of an assembled
command, single write strobes, and the reads (10); and the steps of the link, one for each command. -/

namespace Sys2Proof.Machine

/-! ### Framing -/

/-- What a command word ends (R180): a command in assembly is abandoned, Incomplete; a Write Map taking data is ended, and
an import with it, which is judged first. -/
def State.endAssembly (s : State) : State :=
  match s.bench.assembly with
  | .idle => s
  | .assembling _ _ => State.refuse { s with bench := { s.bench with assembly := .idle } } .incomplete
  | .takingData imp => State.endData { s with bench := { s.bench with assembly := .idle } } imp

/-- A command word that the unit acts on arrives: the stream read claimed before it is completed first, and what was in
assembly ends (R180; log 5). -/
def State.commandArrives (s : State) : State := s.takeClaimedRead.endAssembly

/-- Whether the unit is the selected one (R187). -/
def State.isSelected (s : State) : Bool := decide (s.bench.selected = s.startup.unitNo)

/-- The command in assembly is a Select Unit (R187). -/
def State.assemblingSelect (s : State) : Bool :=
  match s.bench.assembly with
  | .assembling .selectUnit _ => true
  | .idle | .assembling _ _ | .takingData _ => false

/-- A command for the selected unit alone: the other unit ignores it, except that its command word ends a Select Unit it is
assembling (R187). -/
def State.commandSelected (s : State) (own : State → State) : State :=
  if s.isSelected then own s.commandArrives
  else if s.assemblingSelect then s.commandArrives
  else s

/-- A command that both units of a pair take (R187, R202). -/
def State.commandBoth (s : State) (own : State → State) : State := own s.commandArrives

/-- Whether both units take a command: Select Unit and Self-Test (R181). -/
def isPairCommand : CmdCode → Bool
  | .selectUnit | .selfTest => true
  | _ => false

/-- A command taken by the units that take it. -/
def State.command (s : State) (code : CmdCode) (own : State → State) : State :=
  if isPairCommand code then s.commandBoth own else s.commandSelected own

/-- The judgement and effect of an assembled command on its parameter words, in order (R180). -/
def State.perform (s : State) (code : CmdCode) (ps : List Word) : State :=
  match code, ps with
  | .null, [] => s.cmdNull
  | .selectUnit, [u] => s.cmdSelectUnit u
  | .selfTest, [] => s.cmdSelfTest
  | .unitReset, [] => s.cmdUnitReset
  | .haltStream, [] => s.cmdHaltStream
  | .setGeometry, [h, w] => s.cmdSetGeometry h w
  | .fill, [v, st] => s.cmdFill v st
  | .setWindow, [a, b, c, d] => s.cmdSetWindow a b c d
  | .setAccessOrder, [a, b, c] => s.cmdSetAccessOrder a b c
  | .writeMap, [] => s.cmdWriteMap
  | .writeMapContinue, [] => s.cmdWriteMapContinue
  | .readMapItem, [] => s.cmdReadMapItem
  | .streamMap, [n] => s.cmdStreamMap n
  | .publishNow, [h] => s.cmdPublishNow h
  | .enqueueRun, [a, b, c, d, e, f, g] => s.cmdEnqueueRun a b c d e f g
  | .cancelQueued, [t] => s.cmdCancelQueued t
  | .haltRun, [] => s.cmdHaltRun
  | .takeResult, [] => s.cmdTakeResult
  | .feedForwardOn, [] => s.cmdFeedForwardOn
  | .feedForwardOff, [] => s.cmdFeedForwardOff
  | .excludeWedge, [h, w] => s.cmdExclude h w
  | .includeWedge, [h, w] => s.cmdInclude h w
  | .clearExclusions, [h] => s.cmdClearExclusions h
  | .readExclusions, [] => s.cmdReadExclusions
  | .setPermissions, [a, b, c] => s.cmdSetPermissions a b c
  | .readPermissions, [] => s.cmdReadPermissions
  | .readMonitor, [h] => s.cmdReadMonitor h
  | .readCaptureCounts, [] => s.cmdReadCaptureCounts
  | .readIdentity, [] => s.cmdReadIdentity
  | .readSettings, [] => s.cmdReadSettings
  | .setSetting, [a, b] => s.cmdSetSetting a b
  | .setHeadGain, [a, b] => s.cmdSetHeadGain a b
  | .setHeadOptions, [a, b, c, d] => s.cmdSetHeadOptions a b c d
  | .clearEvents, [m] => s.cmdClearEvents m
  | .setEventEnables, [m] => s.cmdSetEventEnables m
  | _, _ => s

/-- The assembly begins to hold a command's parameters (R180). -/
def State.beginAssembly (code : CmdCode) (s : State) : State :=
  { s with bench := { s.bench with assembly := .assembling code [] } }

/-- A command word, taken alone (R180): with no parameters the command is judged at once; with parameters it puts the
assembly in Assembling; a code that names no command is refused BadParameter, after NotReady and Streaming as every command is
(R181, R203; log 31, DEDUCED). -/
def State.commandWord (s : State) (w : Word) : State :=
  match CmdCode.ofWord w with
  | none => s.commandSelected fun s => s.judged fun s => s.refuse .badParameter
  | some code =>
    if code.paramCount = 0 then s.command code fun s => s.perform code []
    else s.command code (State.beginAssembly code)

/-- A parameter word for the command in assembly: held, or, as its last, the command judged (R180). -/
def State.assembleWord (s : State) (code : CmdCode) (ps : List Word) (w : Word) : State :=
  if ps.length + 1 < code.paramCount then
    { s with bench := { s.bench with assembly := .assembling code (ps ++ [w]) } }
  else State.perform { s with bench := { s.bench with assembly := .idle } } code (ps ++ [w])

/-- A parameter word, taken alone (R180): ignored while the assembly is Idle, held or completing a command while Assembling,
data while Taking Data. Only a Select Unit is assembled in a unit that is not selected (R187). -/
def State.parameterWord (s : State) (w : Word) : State :=
  if s.isSelected || s.assemblingSelect then
    let s1 := s.takeClaimedRead
    match s1.bench.assembly with
    | .idle => s1
    | .assembling code ps => s1.assembleWord code ps w
    | .takingData imp => s1.dataWord imp w
  else s

/-- One write strobe of the link (R178). -/
def State.writeStrobe (s : State) (select : BitVec 2) (w : Word) : State :=
  match select.toNat with
  | 0 => s.commandWord w
  | 1 => s.parameterWord w
  | _ => s

/-- The words of a command written one after another: its command word, then its parameter words. -/
def State.writeCommand (s : State) (code : CmdCode) (ps : List Word) : State :=
  ps.foldl (fun s w => s.writeStrobe 1 w) (s.writeStrobe 0 code.code)

/-! ### Reads -/

/-- A select-0 read (R179): the unit that drives the link drives the oldest word of its Return Queue, which leaves it, and a
stream in progress places its next word. -/
def State.readReturnQueue (s : State) : State :=
  let s1 := { s with bench := { s.bench with out := s.linkRead 0 } }
  if s.drivesLink ∧ s.bench.returnQueue ≠ [] then
    State.pump { s1 with bench := { s1.bench with returnQueue := s.bench.returnQueue.tail } }
  else s1

/-- A select-1 read (R183): the unit that drives the link drives its Status word as formed before any clearing, and clears
every event flag whose enable is set. -/
def State.readStatus (s : State) : State :=
  let s1 := { s with bench := { s.bench with out := s.linkRead 1 } }
  if s.drivesLink then { s1 with bench := { s1.bench with flags := s.bench.flags.minus s.bench.enables } } else s1

/-- RETURN_QUEUE_READ (R179). -/
def execReturnQueueRead (s : State) : Host.Outcome State Fault Refusal := .next s.readReturnQueue

/-- STATUS_READ_ACKNOWLEDGE (R183). -/
def execStatusReadAcknowledge (s : State) : Host.Outcome State Fault Refusal := .next s.readStatus

/-! ### Single words -/

/-- BENCH_PARAMETER_WORD (R178, R180): one write strobe. -/
def execBenchParameterWord (select : BitVec 2) (w : Word) (s : State) : Host.Outcome State Fault Refusal :=
  .next (s.writeStrobe select w)

/-- MAP_DATA_WORD (R165, R176): a write strobe with select 1. -/
def execMapDataWord (w : Word) (s : State) : Host.Outcome State Fault Refusal := .next (s.parameterWord w)

/-- UNKNOWN_COMMAND (R180): a write strobe with select 0. -/
def execUnknownCommand (w : Word) (s : State) : Host.Outcome State Fault Refusal := .next (s.commandWord w)

/-! ### Commands -/

/-- NULL (R193). -/
def execNull (s : State) : Host.Outcome State Fault Refusal := .next (s.commandSelected State.cmdNull)

/-- SELECT_UNIT (R187). -/
def execSelectUnit (u : Word) (s : State) : Host.Outcome State Fault Refusal :=
  .next (s.commandBoth (State.cmdSelectUnit u))

/-- SELF_TEST (R202), with the level of the strap it reads (R196). -/
def execSelfTest (strap : Bool) (s : State) : Host.Outcome State Fault Refusal :=
  .next ((s.setStrap strap).commandBoth State.cmdSelfTest)

/-- UNIT_RESET (R194). -/
def execUnitReset (s : State) : Host.Outcome State Fault Refusal := .next (s.commandSelected State.cmdUnitReset)

/-- HALT_STREAM (R173). -/
def execHaltStream (s : State) : Host.Outcome State Fault Refusal := .next (s.commandSelected State.cmdHaltStream)

/-- SET_GEOMETRY (R18). -/
def execSetGeometry (heads wedges : Word) (s : State) : Host.Outcome State Fault Refusal :=
  .next (s.commandSelected (State.cmdSetGeometry heads wedges))

/-- FILL (R27). -/
def execFill (value state : Word) (s : State) : Host.Outcome State Fault Refusal :=
  .next (s.commandSelected (State.cmdFill value state))

/-- SET_WINDOW (R159). -/
def execSetWindow (fh lh fw lw : Word) (s : State) : Host.Outcome State Fault Refusal :=
  .next (s.commandSelected (State.cmdSetWindow fh lh fw lw))

/-- SET_ACCESS_ORDER (R160). -/
def execSetAccessOrder (major direction view : Word) (s : State) : Host.Outcome State Fault Refusal :=
  .next (s.commandSelected (State.cmdSetAccessOrder major direction view))

/-- WRITE_MAP (R167). -/
def execWriteMap (s : State) : Host.Outcome State Fault Refusal := .next (s.commandSelected State.cmdWriteMap)

/-- WRITE_MAP_CONTINUE (R168). -/
def execWriteMapContinue (s : State) : Host.Outcome State Fault Refusal :=
  .next (s.commandSelected State.cmdWriteMapContinue)

/-- READ_MAP_ITEM (R170). -/
def execReadMapItem (s : State) : Host.Outcome State Fault Refusal := .next (s.commandSelected State.cmdReadMapItem)

/-- STREAM_MAP (R172). -/
def execStreamMap (count : Word) (s : State) : Host.Outcome State Fault Refusal :=
  .next (s.commandSelected (State.cmdStreamMap count))

/-- PUBLISH_NOW (R80). -/
def execPublishNow (heads : Word) (s : State) : Host.Outcome State Fault Refusal :=
  .next (s.commandSelected (State.cmdPublishNow heads))

/-- ENQUEUE_RUN (R84). -/
def execEnqueueRun (w1 w2 w3 w4 w5 w6 w7 : Word) (s : State) : Host.Outcome State Fault Refusal :=
  .next (s.commandSelected (State.cmdEnqueueRun w1 w2 w3 w4 w5 w6 w7))

/-- CANCEL_QUEUED (R86). -/
def execCancelQueued (tag : Word) (s : State) : Host.Outcome State Fault Refusal :=
  .next (s.commandSelected (State.cmdCancelQueued tag))

/-- HALT_RUN (R100). -/
def execHaltRun (s : State) : Host.Outcome State Fault Refusal := .next (s.commandSelected State.cmdHaltRun)

/-- TAKE_RESULT (R108). -/
def execTakeResult (s : State) : Host.Outcome State Fault Refusal := .next (s.commandSelected State.cmdTakeResult)

/-- FEED_FORWARD_ON (R139). -/
def execFeedForwardOn (s : State) : Host.Outcome State Fault Refusal :=
  .next (s.commandSelected State.cmdFeedForwardOn)

/-- FEED_FORWARD_OFF (R140). -/
def execFeedForwardOff (s : State) : Host.Outcome State Fault Refusal :=
  .next (s.commandSelected State.cmdFeedForwardOff)

/-- EXCLUDE (R144). -/
def execExclude (head wedge : Word) (s : State) : Host.Outcome State Fault Refusal :=
  .next (s.commandSelected (State.cmdExclude head wedge))

/-- INCLUDE (R146). -/
def execInclude (head wedge : Word) (s : State) : Host.Outcome State Fault Refusal :=
  .next (s.commandSelected (State.cmdInclude head wedge))

/-- CLEAR_EXCLUSIONS (R147). -/
def execClearExclusions (heads : Word) (s : State) : Host.Outcome State Fault Refusal :=
  .next (s.commandSelected (State.cmdClearExclusions heads))

/-- READ_EXCLUSIONS (R148). -/
def execReadExclusions (s : State) : Host.Outcome State Fault Refusal :=
  .next (s.commandSelected State.cmdReadExclusions)

/-- SET_PERMISSIONS (R154). -/
def execSetPermissions (writer heads fields : Word) (s : State) : Host.Outcome State Fault Refusal :=
  .next (s.commandSelected (State.cmdSetPermissions writer heads fields))

/-- READ_PERMISSIONS (R155). -/
def execReadPermissions (s : State) : Host.Outcome State Fault Refusal :=
  .next (s.commandSelected State.cmdReadPermissions)

/-- READ_MONITOR (R44). -/
def execReadMonitor (head : Word) (s : State) : Host.Outcome State Fault Refusal :=
  .next (s.commandSelected (State.cmdReadMonitor head))

/-- READ_CAPTURE_COUNTS (R55). -/
def execReadCaptureCounts (s : State) : Host.Outcome State Fault Refusal :=
  .next (s.commandSelected State.cmdReadCaptureCounts)

/-- READ_IDENTITY (R189). -/
def execReadIdentity (s : State) : Host.Outcome State Fault Refusal :=
  .next (s.commandSelected State.cmdReadIdentity)

/-- READ_SETTINGS (R190). -/
def execReadSettings (s : State) : Host.Outcome State Fault Refusal :=
  .next (s.commandSelected State.cmdReadSettings)

/-- SET_SETTING (R191). -/
def execSetSetting (selector value : Word) (s : State) : Host.Outcome State Fault Refusal :=
  .next (s.commandSelected (State.cmdSetSetting selector value))

/-- SET_HEAD_GAIN (R192). -/
def execSetHeadGain (head gain : Word) (s : State) : Host.Outcome State Fault Refusal :=
  .next (s.commandSelected (State.cmdSetHeadGain head gain))

/-- SET_HEAD_OPTIONS (R192). -/
def execSetHeadOptions (head lead polarity split : Word) (s : State) : Host.Outcome State Fault Refusal :=
  .next (s.commandSelected (State.cmdSetHeadOptions head lead polarity split))

/-- CLEAR_EVENTS (R185). -/
def execClearEvents (kinds : Word) (s : State) : Host.Outcome State Fault Refusal :=
  .next (s.commandSelected (State.cmdClearEvents kinds))

/-- SET_EVENT_ENABLES (R185). -/
def execSetEventEnables (kinds : Word) (s : State) : Host.Outcome State Fault Refusal :=
  .next (s.commandSelected (State.cmdSetEventEnables kinds))

end Sys2Proof.Machine
end

