-- ==== Sys2Proof/Machine/Dispatch.lean ====
section
/-! DEFINITION. The dispatch of the steps: one arm for each row of spec/opcode_table.json. -/

namespace Sys2Proof.Machine

/-- What a step does to everything but the queue. -/
def exec (i : Instr) (s : State) : Host.Outcome State Fault Refusal :=
  match i with
  | .captureWord frameStart w => Sys2Proof.Machine.execCaptureWord frameStart w s
  | .indexEvent => Sys2Proof.Machine.execIndexEvent s
  | .indexTimerExpiry => Sys2Proof.Machine.execIndexTimerExpiry s
  | .runStart => Sys2Proof.Machine.execRunStart s
  | .learningTakeRecord => Sys2Proof.Machine.execLearningTakeRecord s
  | .learningOperation => Sys2Proof.Machine.execLearningOperation s
  | .autoExclusion => Sys2Proof.Machine.execAutoExclusion s
  | .ffRequest w => Sys2Proof.Machine.execFfRequest w s
  | .ffOperation => Sys2Proof.Machine.execFfOperation s
  | .ffReplyStrobe otherReady => Sys2Proof.Machine.execFfReplyStrobe otherReady s
  | .sweepStep => Sys2Proof.Machine.execSweepStep s
  | .powerOnReset strap => Sys2Proof.Machine.execPowerOnReset strap s
  | .memoryTestEnd result => Sys2Proof.Machine.execMemoryTestEnd result s
  | .secondaryPresentAssert => Sys2Proof.Machine.execSecondaryPresentAssert s
  | .presentSeen => Sys2Proof.Machine.execPresentSeen s
  | .presenceWindowExpiry => Sys2Proof.Machine.execPresenceWindowExpiry s
  | .passedSeen => Sys2Proof.Machine.execPassedSeen s
  | .pairWaitExpiry => Sys2Proof.Machine.execPairWaitExpiry s
  | .returnQueueRead => Sys2Proof.Machine.execReturnQueueRead s
  | .streamMapItemRead => Sys2Proof.Machine.execStreamMapItemRead s
  | .statusReadAcknowledge => Sys2Proof.Machine.execStatusReadAcknowledge s
  | .benchParameterWord select w => Sys2Proof.Machine.execBenchParameterWord select w s
  | .mapDataWord w => Sys2Proof.Machine.execMapDataWord w s
  | .unknownCommand w => Sys2Proof.Machine.execUnknownCommand w s
  | .null => Sys2Proof.Machine.execNull s
  | .selectUnit u => Sys2Proof.Machine.execSelectUnit u s
  | .selfTest strap => Sys2Proof.Machine.execSelfTest strap s
  | .unitReset => Sys2Proof.Machine.execUnitReset s
  | .haltStream => Sys2Proof.Machine.execHaltStream s
  | .setGeometry heads wedges => Sys2Proof.Machine.execSetGeometry heads wedges s
  | .fill value state => Sys2Proof.Machine.execFill value state s
  | .setWindow firstHead lastHead firstWedge lastWedge => Sys2Proof.Machine.execSetWindow firstHead lastHead firstWedge lastWedge s
  | .setAccessOrder major direction view => Sys2Proof.Machine.execSetAccessOrder major direction view s
  | .writeMap => Sys2Proof.Machine.execWriteMap s
  | .writeMapContinue => Sys2Proof.Machine.execWriteMapContinue s
  | .readMapItem => Sys2Proof.Machine.execReadMapItem s
  | .streamMap count => Sys2Proof.Machine.execStreamMap count s
  | .publishNow heads => Sys2Proof.Machine.execPublishNow heads s
  | .enqueueRun w1 w2 w3 w4 w5 w6 w7 => Sys2Proof.Machine.execEnqueueRun w1 w2 w3 w4 w5 w6 w7 s
  | .cancelQueued tag => Sys2Proof.Machine.execCancelQueued tag s
  | .haltRun => Sys2Proof.Machine.execHaltRun s
  | .takeResult => Sys2Proof.Machine.execTakeResult s
  | .feedForwardOn => Sys2Proof.Machine.execFeedForwardOn s
  | .feedForwardOff => Sys2Proof.Machine.execFeedForwardOff s
  | .excludeWedge head wedge => Sys2Proof.Machine.execExclude head wedge s
  | .includeWedge head wedge => Sys2Proof.Machine.execInclude head wedge s
  | .clearExclusions heads => Sys2Proof.Machine.execClearExclusions heads s
  | .readExclusions => Sys2Proof.Machine.execReadExclusions s
  | .setPermissions writer heads fields => Sys2Proof.Machine.execSetPermissions writer heads fields s
  | .readPermissions => Sys2Proof.Machine.execReadPermissions s
  | .readMonitor head => Sys2Proof.Machine.execReadMonitor head s
  | .readCaptureCounts => Sys2Proof.Machine.execReadCaptureCounts s
  | .readIdentity => Sys2Proof.Machine.execReadIdentity s
  | .readSettings => Sys2Proof.Machine.execReadSettings s
  | .setSetting selector value => Sys2Proof.Machine.execSetSetting selector value s
  | .setHeadGain head gain => Sys2Proof.Machine.execSetHeadGain head gain s
  | .setHeadOptions head lead polarity split => Sys2Proof.Machine.execSetHeadOptions head lead polarity split s
  | .clearEvents kinds => Sys2Proof.Machine.execClearEvents kinds s
  | .setEventEnables kinds => Sys2Proof.Machine.execSetEventEnables kinds s
  | .presentRelease => Sys2Proof.Machine.execPresentRelease s

end Sys2Proof.Machine
end

