-- ==== Sys2Proof/Machine/Step.lean ====
section
/-! DEFINITION. The step of the block: the oldest waiting step runs; with none waiting the publication next in turn is made,
and with none of those the block idles. -/

namespace Sys2Proof.Machine

/-- The step at the front of the queue runs on the unit with the rest of the queue; with none waiting the publication next in
turn is made, and with none to come the unit idles (R74; log 1, log 29). -/
def step (s : State) : Host.Outcome State Fault Refusal :=
  match s.pending with
  | [] => .next s.publishNext
  | c :: rest => exec c { s with pending := rest }

/-- The unit with the command that a word of the opcode table spells put at the front of its queue; unchanged where the word
spells none, which is always, since the table gives no row any bits. -/
def State.withFetchWord (s : State) (nbits w : Nat) : State :=
  match Sys2Proof.decodeTableWord nbits w with
  | some i => { s with pending := i :: s.pending }
  | none => s

end Sys2Proof.Machine
end

