-- ==== Sys2Proof/WellFormed.lean ====
section
/-! DEFINITION. Which steps are well formed: the operands of two rows of the table must be words of the row's own kind.
Every other operand takes every value of its word. -/

namespace Sys2Proof

/-- Whether a write strobe is one the row BENCH_PARAMETER_WORD names: a parameter word, a write with select 2 or 3, or
a command word that opens the assembly of a command with parameters (R178, R180). -/
def benchWordWellFormed (select : BitVec 2) (w : Word) : Bool :=
  if select = 0 then
    match CmdCode.ofWord w with
    | some c => c.paramCount != 0
    | none => false
  else true

/-- Whether a command word names no command, as the row UNKNOWN_COMMAND says (R180). -/
def unknownWordWellFormed (w : Word) : Bool := (CmdCode.ofWord w).isNone

/-- The well-formed steps. -/
def WellFormed : Instr → Bool
  | .benchParameterWord select w => benchWordWellFormed select w
  | .unknownCommand w => unknownWordWellFormed w
  | .captureWord _ _ | .indexEvent | .indexTimerExpiry | .runStart | .learningTakeRecord
  | .learningOperation | .autoExclusion | .ffRequest _ | .ffOperation | .ffReplyStrobe _ | .sweepStep
  | .powerOnReset _ | .memoryTestEnd _ | .secondaryPresentAssert | .presentSeen
  | .presenceWindowExpiry | .passedSeen | .pairWaitExpiry | .returnQueueRead | .streamMapItemRead
  | .statusReadAcknowledge | .mapDataWord _ | .null | .selectUnit _ | .selfTest _ | .unitReset
  | .haltStream | .setGeometry _ _ | .fill _ _ | .setWindow _ _ _ _ | .setAccessOrder _ _ _
  | .writeMap | .writeMapContinue | .readMapItem | .streamMap _ | .publishNow _
  | .enqueueRun _ _ _ _ _ _ _ | .cancelQueued _ | .haltRun | .takeResult | .feedForwardOn
  | .feedForwardOff | .excludeWedge _ _ | .includeWedge _ _ | .clearExclusions _ | .readExclusions
  | .setPermissions _ _ _ | .readPermissions | .readMonitor _ | .readCaptureCounts | .readIdentity
  | .readSettings | .setSetting _ _ | .setHeadGain _ _ | .setHeadOptions _ _ _ _ | .clearEvents _
  | .setEventEnables _ | .presentRelease => true

end Sys2Proof
end

