-- ==== Sys2Proof/Safety.lean ====
section
/-! DEFINITION. The laws of the device, as predicates of a state, and the conditions under which statements speak about the
link. -/

namespace Sys2Proof.Machine

/-! ### The map -/

/-- The cell a map holds at a head and wedge (R5). -/
def cellAt (m : PerHead (Sparse Cell)) (h : Head) (w : Nat) : Cell := Sparse.get Cell.blank (m.get h) w

/-- The map is in canonical form: in each row rising wedges below 512, and no entry equal to the power-on cell. -/
def mapWf (m : PerHead (Sparse Cell)) : Bool := allHeads.all fun h => Sparse.wf Cell.blank Config.gridWedges (m.get h)

/-- HeadsInstalled lies in 1..8 and W in 32..512 (00, "Unit settings"). -/
def Settings.geometryLegal (t : Settings) : Prop :=
  1 ≤ t.headsInstalled ∧ t.headsInstalled ≤ 8 ∧ 32 ≤ t.wedges ∧ t.wedges ≤ 512

/-- Every cell of a window is configured, and its bounds are in order (R159). -/
def Window.legal (w : Window) (t : Settings) : Prop :=
  w.firstHead.val ≤ w.lastHead.val ∧ w.lastHead.val < t.headsInstalled ∧ w.firstWedge ≤ w.lastWedge ∧ w.lastWedge < t.wedges

/-- A pointer names a cell of the window and a word position 0..2 (R161). -/
def Pointer.within (p : Pointer) (w : Window) : Prop :=
  w.firstHead.val ≤ p.head.val ∧ p.head.val ≤ w.lastHead.val ∧ w.firstWedge ≤ p.wedge ∧ p.wedge ≤ w.lastWedge ∧ p.pos ≤ 2

/-- The next cell of a sweep lies in its range, and its range in the grid (01, section 1.7). -/
def Sweep.legal (w : Sweep) : Prop :=
  w.firstHead.val ≤ w.nextHead.val ∧ w.nextHead.val ≤ w.lastHead.val ∧ w.firstWedge ≤ w.nextWedge
    ∧ w.nextWedge ≤ w.lastWedge ∧ w.lastWedge < Config.gridWedges

/-- The Exclusion Table holds at most 32 entries, in ascending order of head then wedge with no two equal, each of a
configured cell (R143). -/
def State.exclusionsLegal (s : State) : Prop :=
  s.exclusions.length ≤ Config.exclusionDepth ∧ s.exclusions.Pairwise (fun a b => exclusionBefore a b = true)
    ∧ ∀ e ∈ s.exclusions, s.configured e.1 e.2 = true

/-- The map, the geometry, the window, the pointer, the sweep and the Exclusion Table are in order, and so is the table of
verdict marks of the active run. -/
structure State.MapLaw (s : State) : Prop where
  geometry : s.settings.geometryLegal
  canonical : mapWf s.map = true
  window : s.bench.window.legal s.settings
  pointer : ∀ p, s.bench.pointer = some p → p.within s.bench.window
  sweep : ∀ w, s.sweep = some w → w.legal
  exclusions : s.exclusionsLegal
  verdicts : ∀ c, s.runs.active = some c →
    ∀ h : Head, Sparse.wf Verdict.unmeasured Config.gridWedges (c.verdicts.get h) = true

/-- A cell's state is Excluded if and only if its head and wedge form an entry of the Exclusion Table (R8). -/
def State.ExclusionLaw (s : State) : Prop :=
  ∀ (h : Head) (w : Nat), (s.cell h w).state = .excluded ↔ (h, w) ∈ s.exclusions

/-- Whether a correction or an offset lies within −2047..+2047 (R6, R13). -/
def withinRange (x : Int) : Prop := -2047 ≤ x ∧ x ≤ 2047

/-- The value a Fill in flight writes lies within the range of a correction (R27). -/
def SweepKind.valueLegal : SweepKind → Prop
  | .fill v _ => withinRange v
  | .geometry | .selfTest | .powerOn => True

/-- Every working and published correction and every published offset lies within −2047..+2047 (R6, R13), and what later
writes are clamped to lies within its own range. -/
structure State.CorrectionLaw (s : State) : Prop where
  cmax : 64 ≤ s.settings.cmax ∧ s.settings.cmax ≤ 2047
  cells : ∀ (h : Head) (w : Nat), withinRange (s.cell h w).working ∧ withinRange (s.cell h w).published
  offsets : ∀ h : Head, withinRange (s.profile h).offset
  fills : ∀ w, s.sweep = some w → w.kind.valueLegal

/-! ### Gains -/

/-- Whether a gain lies within 8192..32767 (R13). -/
def gainLegal (g : Nat) : Prop := 8192 ≤ g ∧ g ≤ 32767

/-- Every head's gain, and every pending gain, lies within 8192..32767 (R13). -/
def State.GainLaw (s : State) : Prop :=
  ∀ h : Head, gainLegal (s.profile h).gain ∧ ∀ g, (s.profile h).pendingGain = some g → gainLegal g

/-! ### Queues -/

/-- The queues keep their bounds: 5 words of a frame in assembly (R45), 16 records (R52), 8 descriptors (R85), 8 results
counting one for the active run (R105), 4 words of the Return Queue (R171); and the publications to come are in ascending order
of head, so 8 at most (R74). -/
structure State.QueueLaw (s : State) : Prop where
  frame : s.capture.frame.length ≤ 5
  fifo : s.capture.fifo.length ≤ Config.fifoDepth
  runs : s.runs.queue.length ≤ Config.runQueueDepth
  results : s.runs.results.length + boolNat s.runs.active.isSome ≤ Config.resultQueueDepth
  words : s.bench.returnQueue.length ≤ Config.returnQueueDepth
  publications : s.publishing.Pairwise fun a b => a.head.val < b.head.val

/-! ### Runs -/

/-- The injection of each phase (R110, R112). -/
def Phase.injection : Phase → Injection
  | .settle | .collect => .off
  | .plusSettle | .plusCollect => .plus
  | .minusSettle | .minusCollect => .minus

/-- Whether a phase is one of a GAIN run (R110). -/
def Phase.ofGain : Phase → Bool
  | .settle | .collect => false
  | .plusSettle | .plusCollect | .minusSettle | .minusCollect => true

/-- A run is active only while the unit is Ready and feed-forward is On (R87), the index timer is Running exactly while a
run is active (R59), and the active run's phase and injection are those of its kind (R92, R110). -/
structure State.RunLaw (s : State) : Prop where
  active : s.runs.active.isSome = true → s.startup.unitState = .ready ∧ s.settings.feedForward = true
  timer : s.index.timer.isSome = s.runs.active.isSome
  phase : ∀ c, s.runs.active = some c →
    c.phase.ofGain = decide (c.desc.kind = .gain) ∧ c.injection = c.phase.injection

/-- Whether a number is one of the depths (R191). -/
def depthLegal (d : Nat) : Prop := d = 2 ∨ d = 4 ∨ d = 8 ∨ d = 16 ∨ d = 32 ∨ d = 64

/-- Whether a LEARN or VERIFY run is active on a configured cell. -/
def State.learningOn (s : State) (h : Head) (w : Nat) : Bool :=
  match s.runs.active with
  | none => false
  | some c => decide (c.desc.kind ≠ .gain) && c.heads.get h && decide (w < s.settings.wedges)

/-- A cell's count is below the depth of the active run and its sum is that of samples of at most 1023 each; where no LEARN or
VERIFY run is active on it both are 0 (R69, R5). The outlier count lies in 0..15. -/
structure State.CountLaw (s : State) : Prop where
  depth : depthLegal s.settings.depth
  runDepth : ∀ c, s.runs.active = some c → depthLegal c.depth
  held : ∀ r, s.held = some r → r.e.natAbs ≤ 1023
  counts : ∀ (h : Head) (w : Nat), (s.cell h w).sum.natAbs ≤ 1023 * (s.cell h w).count
    ∧ (∀ c, s.runs.active = some c → s.learningOn h w = true → (s.cell h w).count < c.depth)
    ∧ (s.learningOn h w = false → (s.cell h w).count = 0)
  outliers : ∀ (h : Head) (w : Nat), (s.cell h w).outliers ≤ 15

/-! ### The link -/

/-- The unit takes the words of the link for itself, with nothing in assembly and no stream in progress, and is not Failed:
the circumstances in which a command is judged on its own terms (R180, R181, R187). -/
structure State.LinkOpen (s : State) : Prop where
  selected : s.bench.selected = s.startup.unitNo
  assembly : s.bench.assembly = .idle
  stream : s.bench.stream = none
  unit : s.startup.unitState ≠ .failed

/-- The circumstances in which windowed map access is judged on its own terms (R167, R170). -/
structure State.MapOpen (s : State) : Prop where
  link : s.LinkOpen
  unit : s.startup.unitState = .ready
  sweep : s.sweep = none

/-- Steps taken one after another, without the queue. -/
def execAll : List Instr → State → Host.Outcome State Fault Refusal
  | [], s => .next s
  | i :: is, s =>
    match exec i s with
    | .next t => execAll is t
    | .fault f => .fault f
    | .refused r => .refused r

/-- A Stream Map has claimed its next read, which waits to be granted (R172). -/
def State.ReadWaits (s : State) : Prop := ∃ left crc, s.bench.stream = some { kind := .map left crc, words := [] }

/-- v is s with the read that a Stream Map has claimed completed, after what the Map Arbiter grants before it; s itself where
none waits (R19, R180; log 5). -/
def State.ReadTaken (s v : State) : Prop :=
  (s.ReadWaits → execAll [.ffOperation, .learningOperation, .streamMapItemRead] s = .next v) ∧ (¬ s.ReadWaits → v = s)

/-- What a readout leaves of the Return Queue and the stream: the words for which there is room placed, the rest waiting as
the stream in progress (R171). -/
def State.streaming (s : State) (ws : List Word) : State :=
  { s with bench := { s.bench with
      lastOutcome := .accepted
      returnQueue := s.bench.returnQueue ++ ws.take (4 - s.bench.returnQueue.length)
      stream := if ws.length ≤ 4 - s.bench.returnQueue.length then none
                else some { kind := .copy, words := ws.drop (4 - s.bench.returnQueue.length) } } }

end Sys2Proof.Machine
end

