-- ==== Sys2Proof/Certificates/Slice0/Obligations.lean ====
section
/-! DEFINITION. The statements about the model, for the provers. -/

section

open Sys2Proof Sys2Proof.Machine

/-! ### The machine and its arithmetic -/

/-- The command at the front of the queue runs on the unit with the queue's rest (log 1). -/
def Obligations.StepRunsFrontCommand : Prop :=
  ∀ (c : Instr) (rest : List Instr) (s : State), s.pending = c :: rest → step s = exec c { s with pending := rest }

/-- A step whose condition does not hold leaves the unit as it is, and with no step waiting and no publication to come the block
idles. The model's own choice (log 1, log 2, log 29). -/
def Obligations.StepsWithoutTheirCondition : Prop :=
  ∀ s : State,
    (s.pending = [] → s.publishing = [] → step s = .next s)
    ∧ (s.index.timer = none ∨ s.runs.active = none → exec .indexTimerExpiry s = .next s)
    ∧ (s.runs.active.isSome = true ∨ s.runs.queue = [] ∨ 8 ≤ s.runs.results.length ∨ s.startup.unitState ≠ .ready
        ∨ s.settings.feedForward = false ∨ s.sweep.isSome = true → exec .runStart s = .next s)
    ∧ (s.held.isSome = true ∨ s.capture.fifo = [] → exec .learningTakeRecord s = .next s)
    ∧ (s.held = none ∨ (∃ q, s.ff.server = .forming q) → exec .learningOperation s = .next s)
    ∧ (s.autoRequests = [] → exec .autoExclusion s = .next s)
    ∧ ((∀ q, s.ff.server ≠ .forming q) → exec .ffOperation s = .next s)
    ∧ (s.sweep = none ∨ (∃ q, s.ff.server = .forming q) ∨ s.held.isSome = true
        ∨ (∃ left crc, s.bench.stream = some { kind := .map left crc, words := [] }) → exec .sweepStep s = .next s)
    ∧ ((∀ left crc, s.bench.stream ≠ some { kind := .map left crc, words := [] }) ∨ (∃ q, s.ff.server = .forming q)
        ∨ s.held.isSome = true → exec .streamMapItemRead s = .next s)
    ∧ (∀ r, s.startup.unitState ≠ .starting ∨ s.startup.phase ≠ .memoryTest → exec (.memoryTestEnd r) s = .next s)
    ∧ (s.startup.unitNo ≠ 0 ∨ s.startup.unitState ≠ .starting ∨ s.startup.checkOpen = false →
        exec .presentSeen s = .next s ∧ exec .presenceWindowExpiry s = .next s)
    ∧ (s.startup.unitNo ≠ 0 ∨ s.startup.unitState ≠ .starting ∨ s.startup.verdict ≠ .waiting
        ∨ (s.startup.checkOpen = false ∧ s.startup.presence ≠ .present) →
        exec .passedSeen s = .next s ∧ exec .pairWaitExpiry s = .next s)

/-- What the unit holds at the end of power-on reset: the values of the spec's tables of resets (R12, R13, R54, R85, R105, R141,
R143, R152, R162, R186, R191, R195); and, outside those tables, a revolution count of 0 with the timer stopped (R57, R59), no
record held (R29), and a port with no mark and no reply word taken (R127). That the presence reads Unknown is the model's choice:
`State.reset` is a unit strapped as a primary (log 7); a secondary reports Secondary (R189). -/
def Obligations.ResetValues : Prop :=
  (∀ (h : Head) (w : Nat), State.reset.cell h w =
      { working := 0, published := 0, state := .empty, outliers := 0, sum := 0, count := 0, dirty := false, effRev := 0,
        lastStamp := none })
  ∧ (∀ h : Head, State.reset.profile h =
      { gain := 16384, pendingGain := none, lead := 1, inverted := false, offsetSplit := false, offset := 0,
        importFault := false, publishPending := false, autoPublish := false, monitor := none })
  ∧ State.reset.settings =
      { headsInstalled := 8, wedges := 256, depth := 8, learnGain := 4, threshold := 8, outlierLimit := 384,
        suspectCount := 4, cmax := 1024, amin := 256, retryLimit := 1, indexTimeout := 100, feedForward := false }
  ∧ State.reset.capture = { frame := [], fifo := [], malformed := 0, unconfigured := 0, outOfRange := 0, overrun := 0 }
  ∧ State.reset.index = { rev := 0, timer := none }
  ∧ State.reset.held = none
  ∧ State.reset.runs.queue = [] ∧ State.reset.runs.active = none ∧ State.reset.runs.results = []
  ∧ State.reset.ff.server = .idle ∧ State.reset.ff.portMark = false ∧ State.reset.ff.wordsTaken = 0
  ∧ State.reset.exclusions = []
  ∧ (∀ h : Head, State.reset.perms.bench.get h = { wc := true, cs := true }
      ∧ State.reset.perms.learning.get h = { wc := true, cs := true }
      ∧ State.reset.perms.sweep.get h = { wc := true, cs := true })
  ∧ State.reset.bench.assembly = .idle ∧ State.reset.bench.returnQueue = [] ∧ State.reset.bench.stream = none
  ∧ State.reset.bench.window = { firstHead := 0, lastHead := 7, firstWedge := 0, lastWedge := 255 }
  ∧ State.reset.bench.order = { headMajor := false, descending := false, packed := true }
  ∧ State.reset.bench.pointer = some { head := 0, wedge := 0, pos := 0 }
  ∧ State.reset.bench.lastOutcome = .accepted ∧ State.reset.bench.selected = 0
  ∧ (∀ k : Kind, State.reset.bench.flags.get k = false ∧ State.reset.bench.enables.get k = false)
  ∧ State.reset.startup.unitState = .starting ∧ State.reset.startup.testCode = 0
  ∧ State.reset.startup.phase = .memoryTest ∧ State.reset.startup.presence = .unknown

/-- The codes and the parameter counts of the thirty-five commands, in the order of 12.5; every word is read by its bits 7..0
(12.5, R204). -/
def Obligations.CommandCodes : Prop :=
  ([CmdCode.null, .selectUnit, .selfTest, .unitReset, .haltStream, .setGeometry, .fill, .setWindow, .setAccessOrder,
      .writeMap, .writeMapContinue, .readMapItem, .streamMap, .publishNow, .enqueueRun, .cancelQueued, .haltRun,
      .takeResult, .feedForwardOn, .feedForwardOff, .excludeWedge, .includeWedge, .clearExclusions, .readExclusions,
      .setPermissions, .readPermissions, .readMonitor, .readCaptureCounts, .readIdentity, .readSettings, .setSetting,
      .setHeadGain, .setHeadOptions, .clearEvents, .setEventEnables].map fun c => (c.code.toNat, c.paramCount))
    = [(0x00, 0), (0x01, 1), (0x02, 0), (0x03, 0), (0x04, 0), (0x08, 2), (0x09, 2), (0x0A, 4), (0x0B, 3),
      (0x0C, 0), (0x0D, 0), (0x0E, 0), (0x0F, 1), (0x10, 1), (0x11, 7), (0x12, 1), (0x13, 0),
      (0x14, 0), (0x15, 0), (0x16, 0), (0x18, 2), (0x19, 2), (0x1A, 1), (0x1B, 0),
      (0x1C, 3), (0x1D, 0), (0x20, 1), (0x21, 0), (0x22, 0), (0x23, 0), (0x24, 2),
      (0x25, 2), (0x26, 4), (0x28, 1), (0x29, 1)]
  ∧ ∀ (w : Word) (c : CmdCode), CmdCode.ofWord w = some c ↔ w.toNat % 256 = c.code.toNat

/-- R2: the revolution count wraps, and a stamp is earlier than a revolution by the modular rule. -/
def Obligations.RevolutionComparison : Prop :=
  ∀ s r : Rev,
    (r + 1).toNat = (if r.toNat = 65535 then 0 else r.toNat + 1)
    ∧ (earlier s r = true ↔
        1 ≤ ((r.toNat : Int) - s.toNat) % 65536 ∧ ((r.toNat : Int) - s.toNat) % 65536 ≤ 32767)
    ∧ earlier r r = false

/-- R1: a rounded quotient is a nearest whole number, the one away from zero where two are equally near; with the document's
four examples, 559/4, 281/2, -9/8 and -87/2. -/
def Obligations.RoundedHalfAwayFromZero : Prop :=
  (∀ (x : Int) (d : Nat), 0 < d →
      2 * (rounded x d * d - x).natAbs ≤ d
      ∧ (2 * (rounded x d * d - x).natAbs = d → x.natAbs < (rounded x d * d).natAbs))
  ∧ rounded 559 4 = 140 ∧ rounded 281 2 = 141 ∧ rounded (-9) 8 = -1 ∧ rounded (-87) 2 = -44

/-- Stages 1 and 2: when a record is Weak or Inconsistent, and the position that goes to Stage 3 (R31 to R35). -/
def Obligations.PositionErrorBranches : Prop :=
  ∀ amin gain a b c d : Nat, 16 ≤ amin →
    (positionError amin gain a b c d = .weak ↔
      a + b < amin ∨ (256 < (rounded (512 * ((a : Int) - b)) (a + b)).natAbs ∧ c + d < amin))
    ∧ (positionError amin gain a b c d = .inconsistent ↔
      amin ≤ a + b ∧ 256 < (rounded (512 * ((a : Int) - b)) (a + b)).natAbs ∧ amin ≤ c + d
        ∧ 512 - ((rounded (512 * ((c : Int) - d)) (c + d)).natAbs : Int) < 192)
    ∧ ∀ e : Int, positionError amin gain a b c d = .error e ↔
      amin ≤ a + b
        ∧ (((rounded (512 * ((a : Int) - b)) (a + b)).natAbs ≤ 256
              ∧ e = scaleByGain gain (rounded (512 * ((a : Int) - b)) (a + b)))
          ∨ (256 < (rounded (512 * ((a : Int) - b)) (a + b)).natAbs ∧ amin ≤ c + d
              ∧ 192 ≤ 512 - ((rounded (512 * ((c : Int) - d)) (c + d)).natAbs : Int)
              ∧ e = scaleByGain gain ((rounded (512 * ((a : Int) - b)) (a + b)).sign
                  * (512 - ((rounded (512 * ((c : Int) - d)) (c + d)).natAbs : Int)))))

/-- Stage 3: the position error is the scaled position, brought within -1023..+1023, and the clamp acts only where the
position is of magnitude 512 and the gain lies in 32752..32767 (R37). -/
def Obligations.GainClampOnlyAtTheTop : Prop :=
  ∀ (gain : Nat) (p : Int), gainLegal gain → p.natAbs ≤ 512 →
    (scaleByGain gain p).natAbs ≤ 1023
    ∧ (scaleByGain gain p ≠ rounded (p * gain) 16384 ↔ p.natAbs = 512 ∧ 32752 ≤ gain)
    ∧ (scaleByGain gain p ≠ rounded (p * gain) 16384 → scaleByGain gain p = 1023 * p.sign)

/-- R174: the CRC of the link, its step, its order of bytes and of words, and its check value. -/
def Obligations.CrcOfTheLink : Prop :=
  crcStart = 0xFFFFFFFF#32
  ∧ (∀ r : BitVec 32, crcStep r = if r.toNat % 2 = 1 then (r >>> 1) ^^^ 0xEDB88320#32 else r >>> 1)
  ∧ (∀ (r : BitVec 32) (b : BitVec 8), crcByte r b = crcStep^[8] (r ^^^ b.setWidth 32))
  ∧ (∀ (r : BitVec 32) (w : Word), crcWord r w =
      crcByte (crcByte r (BitVec.ofNat 8 w.toNat)) (BitVec.ofNat 8 (w.toNat / 256)))
  ∧ (∀ r : BitVec 32, crcWords r =
      [BitVec.ofNat 16 (r ^^^ 0xFFFFFFFF#32).toNat, BitVec.ofNat 16 ((r ^^^ 0xFFFFFFFF#32).toNat / 65536)])
  ∧ crcFinal ([0x31#8, 0x32#8, 0x33#8, 0x34#8, 0x35#8, 0x36#8, 0x37#8, 0x38#8, 0x39#8].foldl crcByte crcStart)
      = 0xCBF43926#32

/-- The Status word is the number 100 C + 50 A + 10 Q + O of R205, at most 64899, with C in the form of the unit state and the
run; the Status word of an absent secondary is 0, C's form for Absent. So software recovers the fields of the word: two units
whose laws hold and whose Status words are equal agree in every field the word carries (R182, R188, R205). -/
def Obligations.StatusWordCarriesItsFields : Prop :=
  (∀ s : State, s.QueueLaw → s.RunLaw →
    let f := if s.settings.feedForward then 1 else 0
    let b := if s.startup.unitState = .starting ∨ s.sweep.isSome = true then 1 else 0
    let r := s.runs.results.length
    let q := s.runs.queue.length
    let c :=
      match s.startup.unitState, s.runs.active with
      | .starting, _ => 1 + f + 2 * (r + 9 * q)
      | .failed, _ => 163 + f + 2 * r
      | .ready, none => 181 + b + 2 * f + 4 * (r + 9 * q)
      | .ready, some _ => 505 + b + 2 * (r + 8 * q)
    let a := if s.attention then 1 else 0
    let o :=
      match s.bench.lastOutcome with
      | .accepted => 0 | .busy => 1 | .badParameter => 2 | .queueFull => 3 | .tableFull => 4 | .notFound => 5
      | .streaming => 6 | .notReady => 7 | .noResult => 8 | .incomplete => 9
    s.statusWord.toNat = 100 * c + 50 * a + 10 * s.bench.returnQueue.length + o ∧ s.statusWord.toNat ≤ 64899
    ∧ (s.attention = true ↔ ∃ k, s.bench.flags.get k = true ∧ s.bench.enables.get k = true))
  ∧ (∀ s : State, s.startup.unitNo = 0 → s.bench.selected = 1 → s.startup.presence = .absent → s.startup.presLine = false →
      s.linkRead 1 = some 0 ∧ s.linkRead 2 = some 0)
  ∧ ∀ s t : State, s.QueueLaw → s.RunLaw → t.QueueLaw → t.RunLaw → s.statusWord = t.statusWord →
    s.startup.unitState = t.startup.unitState
    ∧ s.runs.active.isSome = t.runs.active.isSome
    ∧ s.settings.feedForward = t.settings.feedForward
    ∧ s.runs.results.length = t.runs.results.length
    ∧ (s.startup.unitState ≠ .failed → s.busy = t.busy ∧ s.runs.queue.length = t.runs.queue.length)
    ∧ s.bench.returnQueue.length = t.bench.returnQueue.length
    ∧ s.attention = t.attention
    ∧ s.bench.lastOutcome = t.bench.lastOutcome

/-! ### The laws of the device -/

/-- Every law of the device holds at reset. -/
def Obligations.ResetHasEveryLaw : Prop :=
  State.reset.MapLaw ∧ State.reset.ExclusionLaw ∧ State.reset.CorrectionLaw ∧ State.reset.GainLaw
    ∧ State.reset.QueueLaw ∧ State.reset.RunLaw ∧ State.reset.CountLaw

/-- Every step keeps the map and the verdict marks of the active run canonical, the geometry in its range, the window inside the
geometry, the pointer inside the window, the sweep inside its range and the Exclusion Table in order (R143, R159, R161). -/
def Obligations.StepKeepsMapLaw : Prop :=
  ∀ s t : State, s.MapLaw → step s = .next t → t.MapLaw

/-- A cell's state is Excluded exactly when the Exclusion Table holds its head and wedge: every step keeps it so (R8). -/
def Obligations.StepKeepsExclusionLaw : Prop :=
  ∀ s t : State, s.MapLaw → s.ExclusionLaw → step s = .next t → t.ExclusionLaw

/-- Every working and published correction and every published offset stays within -2047..+2047 (R6, R13). -/
def Obligations.StepKeepsCorrectionLaw : Prop :=
  ∀ s t : State, s.MapLaw → s.CorrectionLaw → step s = .next t → t.CorrectionLaw

/-- Every gain and every pending gain stays within 8192..32767 (R13, R118). -/
def Obligations.StepKeepsGainLaw : Prop :=
  ∀ s t : State, s.GainLaw → step s = .next t → t.GainLaw

/-- The queues stay within their bounds, the results counting one for the active run, and the publications to come stay in
ascending order of head (R45, R52, R74, R85, R105, R171). -/
def Obligations.StepKeepsQueueLaw : Prop :=
  ∀ s t : State, s.QueueLaw → step s = .next t → t.QueueLaw

/-- A run stays active only while the unit is Ready and feed-forward is On, the index timer runs exactly while a run is
active, and the injection is that of the phase (R59, R87, R110, R112). -/
def Obligations.StepKeepsRunLaw : Prop :=
  ∀ s t : State, s.RunLaw → step s = .next t → t.RunLaw

/-- A cell's count stays below the depth of the active run, its sum that of so many samples, and both 0 where no LEARN or
VERIFY run is active on the cell (R5, R69). -/
def Obligations.StepKeepsCountLaw : Prop :=
  ∀ s t : State, s.MapLaw → s.CountLaw → step s = .next t → t.CountLaw

/-! ### Rules over every step -/

/-- The revolution count changes at index events alone, the frame in assembly at words of the Capture Port alone, and the
Feed-Forward Server at steps of the Feed-Forward Port alone, power-on apart; a step of the link may form a reply whose claim
waits, as the Feed-Forward Server operation would, before the link's own access (R19, R54, R57, R124, R129; log 5). -/
def Obligations.PortsAreReachedByTheirOwnStepsAlone : Prop :=
  ∀ (i : Instr) (s t : State), WellFormed i = true → exec i s = .next t → (∀ strap, i ≠ .powerOnReset strap) →
    t.index.rev = (if i = .indexEvent then s.index.rev + 1 else s.index.rev)
    ∧ ((∀ b w, i ≠ .captureWord b w) → t.capture.frame = s.capture.frame)
    ∧ ((∀ w, i ≠ .ffRequest w) → i ≠ .ffOperation → (∀ b, i ≠ .ffReplyStrobe b) →
        t.ff = s.ff
        ∨ (i.onLink = true ∧ ∃ q u, s.ff.server = .forming q ∧ exec .ffOperation s = .next u ∧ t.ff = u.ff))

/-- A published correction changes only where its head is published, to the working correction: at an index that finds the head
due, or at which the head's publication is still to come; where a geometry, self-test or power-on sweep passes over its cell, to
0; at power-on; and where a Self-Test finds that the last memory test failed. With no step waiting it changes only where the
publication next in turn is made (R6, R74, R197; log 29). -/
def Obligations.PublishedCorrectionChanges : Prop :=
  (∀ (i : Instr) (s t : State) (h : Head) (w : Nat), WellFormed i = true → s.MapLaw → exec i s = .next t →
    (t.cell h w).published ≠ (s.cell h w).published →
      (i = .indexEvent ∧ h.val < s.settings.headsInstalled ∧ w < s.settings.wedges
        ∧ ((((s.profile h).autoPublish = true ∨ (s.profile h).publishPending = true) ∧ (s.profile h).importFault = false)
          ∨ ∃ d ∈ s.publishing, d.head = h)
        ∧ (t.cell h w).published = (s.cell h w).working)
      ∨ (i = .sweepStep ∧ (t.cell h w).published = 0
        ∧ ∃ k, s.sweep = some k ∧ k.nextHead = h ∧ k.nextWedge = w ∧ ∀ v loaded, k.kind ≠ .fill v loaded)
      ∨ (∃ strap, i = .powerOnReset strap)
      ∨ (∃ strap, i = .selfTest strap ∧ s.startup.memoryFault = true ∧ (t.cell h w).published = 0))
  ∧ ∀ (s t : State) (h : Head) (w : Nat), s.MapLaw → s.pending = [] → step s = .next t →
    (t.cell h w).published ≠ (s.cell h w).published →
      h.val < s.settings.headsInstalled ∧ w < s.settings.wedges ∧ (∃ d rest, s.publishing = d :: rest ∧ d.head = h)
        ∧ (t.cell h w).published = (s.cell h w).working

/-- A sample enters a cell only at a Learning Engine operation, or at a step of the link before whose access the arbiter grants
the operation that waits; with the stamp of the record held; and only where the cell is clean, the stamp is not earlier than its
effective revolution, and it is neither Suspect nor Excluded (R19, R63, R66; log 5). -/
def Obligations.SamplesEnterCleanCellsAlone : Prop :=
  ∀ (i : Instr) (s t : State) (h : Head) (w : Nat) (x : Rev), WellFormed i = true → s.MapLaw → exec i s = .next t →
    (t.cell h w).lastStamp = some x → (s.cell h w).lastStamp ≠ some x →
      (i = .learningOperation ∨ i.onLink = true)
      ∧ (∃ r, s.held = some r ∧ r.head = h ∧ r.wedge = w ∧ r.stamp = x)
      ∧ (s.cell h w).dirty = false ∧ earlier x (s.cell h w).effRev = false
      ∧ (s.cell h w).state ≠ .suspect ∧ (s.cell h w).state ≠ .excluded

/-- The unit state changes only at power-on, at a Self-Test, to Starting, and at the end of a start-up test, from Starting to
Ready or Failed as its code says (R195, R201). -/
def Obligations.UnitStateChanges : Prop :=
  ∀ (i : Instr) (s t : State), WellFormed i = true → exec i s = .next t →
    t.startup.unitState ≠ s.startup.unitState →
      (∃ strap, i = .powerOnReset strap)
      ∨ (∃ strap, i = .selfTest strap ∧ t.startup.unitState = .starting)
      ∨ (s.startup.unitState = .starting ∧ t.bench.flags.startupDone = true
        ∧ ((t.startup.unitState = .ready ∧ (t.startup.testCode = 0x01 ∨ t.startup.testCode = 0x81))
          ∨ (t.startup.unitState = .failed ∧ t.runs.queue = [] ∧ (∀ h, (t.profile h).publishPending = false)
            ∧ (t.startup.testCode = 0x02 ∨ t.startup.testCode = 0x03 ∨ t.startup.testCode = 0x82
              ∨ t.startup.testCode = 0x83))))

/-- A word in the Return Queue leaves it only at a select-0 read, oldest first, at Halt Stream, at Unit Reset and at power-on;
every other step can only add words behind it (R171, R179). -/
def Obligations.ReturnQueueKeepsItsWords : Prop :=
  ∀ (i : Instr) (s t : State), WellFormed i = true → exec i s = .next t →
    i ≠ .haltStream → i ≠ .unitReset → (∀ strap, i ≠ .powerOnReset strap) →
    ∃ ws, t.bench.returnQueue = s.bench.returnQueue ++ ws
      ∨ (i = .returnQueueRead ∧ t.bench.out = s.bench.returnQueue.head?
          ∧ t.bench.returnQueue = s.bench.returnQueue.tail ++ ws)

/-! ### The link as a whole -/

/-- What a refusal, an event and a discard leave: a refusal records its outcome and sets CommandRefused; an event sets its
flag alone; a discard raises the active run's total for its cause, up to 65535, and nothing with no run active (R106, R181,
R184). -/
def Obligations.RefusalsEventsAndDiscards : Prop :=
  (∀ (s : State) (o : Outcome), s.refuse o =
      { s with bench := { s.bench with lastOutcome := o, flags := { s.bench.flags with commandRefused := true } } })
  ∧ (∀ (s : State) (k : Kind), ∃ f, s.raise k = { s with bench := { s.bench with flags := f } }
      ∧ ∀ j, f.get j = (decide (j = k) || s.bench.flags.get j))
  ∧ (∀ (s : State) (d : Discard), s.runs.active = none → s.countDiscard d = s)
  ∧ ∀ (s : State) (d : Discard) (ctx : RunCtx), s.runs.active = some ctx →
      ∃ t : Totals, s.countDiscard d = { s with runs := { s.runs with active := some { ctx with totals := t } } }
        ∧ (t.words.zip ctx.totals.words).length = 12
        ∧ [t.idInvalid, t.saturated, t.weak, t.inconsistent, t.offTrack, t.early, t.stale, t.duplicate, t.outlier,
            t.suspect, t.excluded, t.overrun]
          = List.zipWith (fun cause n => if d = cause ∧ n < 65535 then n + 1 else n)
            [.idInvalid, .saturated, .weak, .inconsistent, .offTrack, .early, .stale, .duplicate, .outlier, .suspect,
              .excluded, .overrun]
            [ctx.totals.idInvalid, ctx.totals.saturated, ctx.totals.weak, ctx.totals.inconsistent,
              ctx.totals.offTrack, ctx.totals.early, ctx.totals.stale, ctx.totals.duplicate, ctx.totals.outlier,
              ctx.totals.suspect, ctx.totals.excluded, ctx.totals.overrun]

/-- A unit that is not selected ignores every command but Select Unit and Self-Test, and every parameter word, except that a
command word ends a Select Unit it is assembling, Incomplete, once a Stream Map read claimed before it is completed (R180,
R187; log 5). -/
def Obligations.UnselectedUnitIgnores : Prop :=
  ∀ s : State, s.bench.selected ≠ s.startup.unitNo →
    ((∀ ws, s.bench.assembly ≠ .assembling .selectUnit ws) → ∀ w : Word,
      exec (.mapDataWord w) s = .next s ∧ exec (.benchParameterWord 1 w) s = .next s
      ∧ (CmdCode.ofWord w ≠ some .selectUnit → CmdCode.ofWord w ≠ some .selfTest →
          exec (.benchParameterWord 0 w) s = .next s ∧ exec (.unknownCommand w) s = .next s))
    ∧ (∀ (i : Instr) (code : CmdCode) (ps : List Word), i.linkWords = some (code, ps) →
        code ≠ .selectUnit → code ≠ .selfTest → (∀ ws, s.bench.assembly ≠ .assembling .selectUnit ws) → exec i s = .next s)
    ∧ ∀ ws, s.bench.assembly = .assembling .selectUnit ws →
        ∃ v, s.ReadTaken v
          ∧ let e := State.refuse { v with bench := { v.bench with assembly := .idle } } .incomplete
            (∀ (i : Instr) (code : CmdCode) (ps : List Word), i.linkWords = some (code, ps) →
              code ≠ .selectUnit → code ≠ .selfTest → exec i s = .next e)
            ∧ ∀ w : Word, CmdCode.ofWord w ≠ some .selectUnit → CmdCode.ofWord w ≠ some .selfTest →
              exec (.benchParameterWord 0 w) s = .next e ∧ exec (.unknownCommand w) s = .next e

/-- What refuses a command before its own terms. A Failed unit refuses NotReady every command but Select Unit and Self-Test;
in another unit, while a stream is in progress, every command but Null, Halt Stream, Unit Reset, Select Unit and Self-Test is
refused Streaming; and with no stream, windowed map access, Fill and Set Geometry are refused Busy while the unit is Starting,
whatever their parameters, and windowed map access also while a sweep is in flight (R18, R27, R167, R170, R172, R181, R195,
R203). Here nothing is in assembly and no stream read waits; what a command word ends and completes first is said by
`CommandEndsAssembly`. -/
def Obligations.RefusalsBeforeOwnTerms : Prop :=
  ∀ (s : State) (i : Instr) (code : CmdCode) (ps : List Word), i.linkWords = some (code, ps) →
    code ≠ .selectUnit → code ≠ .selfTest →
    s.bench.selected = s.startup.unitNo → s.bench.assembly = .idle →
    (∀ left crc, s.bench.stream ≠ some { kind := .map left crc, words := [] }) →
      (s.startup.unitState = .failed → exec i s = .next (s.refuse .notReady))
      ∧ (s.startup.unitState ≠ .failed → s.bench.stream.isSome = true →
          code ≠ .null → code ≠ .haltStream → code ≠ .unitReset → exec i s = .next (s.refuse .streaming))
      ∧ (s.startup.unitState = .starting → s.bench.stream = none →
          (code = .setGeometry ∨ code = .fill ∨ code = .writeMap ∨ code = .writeMapContinue ∨ code = .readMapItem
            ∨ code = .streamMap) → exec i s = .next (s.refuse .busy))
      ∧ (s.startup.unitState ≠ .failed → s.bench.stream = none → s.sweep.isSome = true →
          (code = .writeMap ∨ code = .writeMapContinue ∨ code = .readMapItem ∨ code = .streamMap) →
            exec i s = .next (s.refuse .busy))

/-- A command does what its words do, written one after another as the link carries them: the command word with select 0, then
each parameter word with select 1. Where the command has parameter words, no Stream Map read may wait: each word completes the
read claimed before its own step, which the model takes as its arrival (R178, R180; log 4, log 5). -/
def Obligations.CommandEqualsItsWords : Prop :=
  ∀ (s : State) (i : Instr) (code : CmdCode) (ps : List Word), i.linkWords = some (code, ps) →
    ps = [] ∨ ¬ s.ReadWaits →
    (∀ strap, i = .selfTest strap → strap = s.startup.strap) →
      exec i s = execAll (.benchParameterWord 0 code.code :: ps.map (.benchParameterWord 1)) s

/-- A command word completes first the Stream Map read claimed before it; then it abandons the command in assembly, Incomplete,
or ends a Write Map taking data, failing an import that has not been judged; and its command is then judged as from Idle. So it
is for every command in the selected unit, for a word that opens an assembly or that names no command, and for Select Unit and
Self-Test in a unit that is not selected (R176, R180, R187; log 5). A word that names no command is refused NotReady in a Failed
unit and Streaming during a stream before BadParameter (R181, R203; log 31, DEDUCED). That a word arrives in its own step, so
that it completes whatever read is claimed by then, is the model's choice (log 5). -/
def Obligations.CommandEndsAssembly : Prop :=
  ∀ s : State, ∃ v, s.ReadTaken v
    ∧ let idle : BenchLink := { v.bench with assembly := .idle }
      let e : State :=
        match v.bench.assembly with
        | .idle => v
        | .assembling _ _ => State.refuse { v with bench := idle } .incomplete
        | .takingData none => { v with bench := idle }
        | .takingData (some imp) =>
          if imp.stage = .judged then { v with bench := idle }
          else { v with
            profiles := v.profiles.set imp.head { v.profile imp.head with importFault := true }
            bench := { idle with flags := { v.bench.flags with importMismatch := true } } }
      (∀ (i : Instr) (code : CmdCode) (ps : List Word), i.linkWords = some (code, ps) →
        s.bench.selected = s.startup.unitNo ∨ code = .selectUnit ∨ code = .selfTest →
          (code ≠ .selfTest → exec i s = .next (e.perform code ps))
          ∧ (∀ strap, i = .selfTest strap →
              exec i s = .next (State.perform { e with startup := { e.startup with strap := strap } } code ps))
          ∧ (¬ e.ReadWaits → exec i s = exec i e))
      ∧ (∀ (w : Word) (code : CmdCode), CmdCode.ofWord w = some code →
        s.bench.selected = s.startup.unitNo ∨ code = .selectUnit ∨ code = .selfTest →
          exec (.benchParameterWord 0 w) s = .next
            (if code.paramCount = 0 then e.perform code []
             else { e with bench := { e.bench with assembly := .assembling code [] } }))
      ∧ ∀ w : Word, CmdCode.ofWord w = none → s.bench.selected = s.startup.unitNo →
        exec (.unknownCommand w) s = .next (e.refuse
          (if e.startup.unitState = .failed then .notReady else if e.bench.stream.isSome then .streaming else .badParameter))

/-! ### The Capture Port and the index -/

/-- Words written to the Capture Port assemble a frame, and a partial frame and a stray word are discarded as Malformed (R45,
R46). -/
def Obligations.CaptureWordAssembles : Prop :=
  ∀ (s : State) (w : Word),
    (s.capture.frame = [] → exec (.captureWord true w) s = .next { s with capture := { s.capture with frame := [w] } })
    ∧ (s.capture.frame ≠ [] → exec (.captureWord true w) s = .next { s with capture := { s.capture with
        frame := [w]
        malformed := if s.capture.malformed < 65535 then s.capture.malformed + 1 else s.capture.malformed } })
    ∧ (s.capture.frame = [] → exec (.captureWord false w) s = .next { s with capture := { s.capture with
        malformed := if s.capture.malformed < 65535 then s.capture.malformed + 1 else s.capture.malformed } })
    ∧ (1 ≤ s.capture.frame.length → s.capture.frame.length ≤ 4 →
        exec (.captureWord false w) s = .next { s with capture := { s.capture with frame := s.capture.frame ++ [w] } })

/-- The sixth word completes the frame. A frame for the other unit's head, or one that completes while the unit is Starting
or Failed, has no effect; otherwise the first checks judge it in their order, and a frame that passes them is stamped and
placed in the Capture FIFO, or lost where sixteen records wait (R47 to R53). -/
def Obligations.CompleteFrameJudged : Prop :=
  ∀ (s : State) (w1 w2 w3 w4 w5 w6 : Word), s.capture.frame = [w1, w2, w3, w4, w5] →
    exec (.captureWord false w6) s = .next
      (let s0 : State := { s with capture := { s.capture with frame := [] } }
       let head : Head := Fin.ofNat 8 (w1.toNat / 4096)
       let wedge := w1.toNat / 8 % 512
       if w1.toNat / 4096 / 8 ≠ s.startup.unitNo.val ∨ s.startup.unitState ≠ .ready then s0
       else if s.settings.headsInstalled ≤ head.val then
         { s0 with capture := { s0.capture with
            unconfigured := if s.capture.unconfigured < 65535 then s.capture.unconfigured + 1 else s.capture.unconfigured } }
       else if s.settings.wedges ≤ wedge then
         { s0 with capture := { s0.capture with
            outOfRange := if s.capture.outOfRange < 65535 then s.capture.outOfRange + 1 else s.capture.outOfRange } }
       else if w1.getLsbD 2 = false then s0.countDiscard .idInvalid
       else if w1.getLsbD 1 = true then s0.countDiscard .saturated
       else if s.capture.fifo.length < 16 then
         { s0 with capture := { s0.capture with fifo := s.capture.fifo ++
            [{ head := head, wedge := wedge, track := w2, a := w3.toNat % 4096, b := w4.toNat % 4096,
               c := w5.toNat % 4096, d := w6.toNat % 4096, stamp := s.index.rev }] } }
       else
         State.raise (State.countDiscard { s0 with capture := { s0.capture with
            overrun := if s.capture.overrun < 255 then s.capture.overrun + 1 else s.capture.overrun } } .overrun)
           .captureOverrun)

/-- With no run active and no publication to come, an index pulse advances the revolution count, finds the due heads, publishes
the first of them in ascending order and sets Revolution; the publications of the others are still to come, each with whether
the mark was set and a pending gain present when the index arrived. In each wedge of a published head the working correction
becomes the published one, a dirty cell takes the new revolution as its effective one and is clean, and the head takes the
rounded mean of its published corrections as its offset and its pending gain as its gain. A publication to come is made at a
step with none waiting, one head at a time, over the W and HeadsInstalled then in force, and takes the gain and clears the mark
only where the index found them and, for the gain, none has replaced it since; the next index makes first those still to come
(R56, R74 to R78). Where a Publish Now comes between the arrival and the publication of a head whose mark the index had found
set, that the publication clears the mark all the same is the model's choice (R75 step 5 against R74 and R80; log 29). How many
heads an index publishes within its step is the model's own schedule, `publishAtOnce`, and with nothing scheduled it publishes
every one (log 29). -/
def Obligations.IndexPublishes : Prop :=
  (∀ s : State, s.MapLaw → s.runs.active = none → s.publishing = [] →
    let due := [(0 : Head), 1, 2, 3, 4, 5, 6, 7].filter fun h =>
      decide (h.val < s.settings.headsInstalled) && ((s.profile h).autoPublish || (s.profile h).publishPending)
        && !(s.profile h).importFault
    let n := match s.publishAtOnce with | [] => 8 | k :: _ => k
    ∃ (m : PerHead (Sparse Cell)) (ps : PerHead Profile),
      exec .indexEvent s = .next { s with
        map := m
        profiles := ps
        publishing := (due.drop n).map fun h => { head := h, rev := s.index.rev + 1
                                                  marked := (s.profile h).publishPending
                                                  gainFound := (s.profile h).pendingGain.isSome }
        publishAtOnce := s.publishAtOnce.tail
        index := { s.index with rev := s.index.rev + 1 }
        bench := { s.bench with flags := { s.bench.flags with revolution := true } } }
      ∧ ∀ h : Head,
        (h ∈ due.take n →
            (∀ w, w < s.settings.wedges → cellAt m h w = { s.cell h w with
              published := (s.cell h w).working
              effRev := if (s.cell h w).dirty then s.index.rev + 1 else (s.cell h w).effRev
              dirty := false })
            ∧ (∀ w, s.settings.wedges ≤ w → cellAt m h w = s.cell h w)
            ∧ ps.get h = { s.profile h with
                offset :=
                  let good := (List.range s.settings.wedges).filter fun w => (s.cell h w).state != .excluded
                  if good = [] then 0 else rounded (good.map fun w => (s.cell h w).working).sum good.length
                gain := (s.profile h).pendingGain.getD (s.profile h).gain
                pendingGain := none
                publishPending := false })
        ∧ (h ∉ due.take n → (∀ w, cellAt m h w = s.cell h w) ∧ ps.get h = s.profile h))
  ∧ (∀ (s : State) (d : DueHead) (rest : List DueHead), s.MapLaw → s.pending = [] → s.publishing = d :: rest →
    (s.settings.headsInstalled ≤ d.head.val → step s = .next { s with publishing := rest })
    ∧ (d.head.val < s.settings.headsInstalled →
      ∃ (m : PerHead (Sparse Cell)) (ps : PerHead Profile),
        step s = .next { s with map := m, profiles := ps, publishing := rest }
        ∧ (∀ (h : Head) (w : Nat), cellAt m h w =
            if h = d.head ∧ w < s.settings.wedges then
              { s.cell h w with
                published := (s.cell h w).working
                effRev := if (s.cell h w).dirty then d.rev else (s.cell h w).effRev
                dirty := false }
            else s.cell h w)
        ∧ ∀ h : Head, ps.get h =
            if h = d.head then
              let p := s.profile h
              let good := (List.range s.settings.wedges).filter fun w => (s.cell h w).state != .excluded
              { p with
                offset := if good = [] then 0 else rounded (good.map fun w => (s.cell h w).working).sum good.length
                gain := if d.gainFound then p.pendingGain.getD p.gain else p.gain
                pendingGain := if d.gainFound then none else p.pendingGain
                publishPending := p.publishPending && !d.marked }
            else s.profile h))
  ∧ ∀ (s : State) (d : DueHead) (rest : List DueHead), s.publishing = d :: rest →
    ∃ u, step { s with pending := [] } = .next u ∧ exec .indexEvent s = exec .indexEvent { u with pending := s.pending }

/-- With a run active an index pulse publishes as it does with none, restarts the index timer, and steps the run. In a settle
phase the counter falls by one, and the index that brings it to 0 begins the collect phase there; in PLUS_COLLECT a revolution
is counted, and the M-th begins MINUS_SETTLE and its injection, or MINUS_COLLECT where there is no settling (R59, R92, R93,
R111, R112). That no revolution of MINUS_SETTLE is counted, its phase revolutions being 0 from its first, is the model's choice, and
so is that the collect start revolution of PLUS_COLLECT stands through it (log 30). -/
def Obligations.IndexStepsSettling : Prop :=
  ∀ (s : State) (c : RunCtx), s.runs.active = some c →
    ∃ u, exec .indexEvent { s with runs := { s.runs with active := none } } = .next u
      ∧ ((c.phase = .settle ∨ c.phase = .plusSettle ∨ c.phase = .minusSettle) →
          let c1 : RunCtx :=
            if 2 ≤ c.settleCounter then { c with settleCounter := c.settleCounter - 1 }
            else { c with
              phase := if c.phase = .settle then .collect else if c.phase = .plusSettle then .plusCollect else .minusCollect
              settleCounter := 0
              collectStart := some (s.index.rev + 1)
              phaseRevs := 0 }
          exec .indexEvent s = .next { u with
            index := { rev := s.index.rev + 1, timer := some s.settings.indexTimeout }
            runs := { s.runs with active := some c1 } })
      ∧ (c.phase = .plusCollect →
          let c1 : RunCtx :=
            if c.phaseRevs + 1 < c.desc.phaseRevs then
              { c with phaseRevs := c.phaseRevs + 1, collectRevs := c.collectRevs + 1 }
            else if c.desc.settle = 0 then
              { c with phase := .minusCollect, injection := .minus, settleCounter := 0,
                       collectStart := some (s.index.rev + 1), phaseRevs := 0, collectRevs := c.collectRevs + 1 }
            else
              { c with phase := .minusSettle, injection := .minus, settleCounter := c.desc.settle, phaseRevs := 0,
                       collectRevs := c.collectRevs + 1 }
          exec .indexEvent s = .next { u with
            index := { rev := s.index.rev + 1, timer := some s.settings.indexTimeout }
            runs := { s.runs with active := some c1 } })

/-- An index pulse in COLLECT, after its publications. A VERIFY run ends Complete at the D-th revolution. A LEARN run ends
Complete where every cell of its heads that is neither Excluded nor Suspect is Converged; goes on while revolutions of its
budget remain; retries, with the sums, the counts and, by permission, the outlier counts of its heads cleared, while retries
remain; and ends Exhausted otherwise (R94 to R96). That the settle phase of a retry keeps the collect start revolution of the
collect phase before it is the model's choice (log 30). -/
def Obligations.IndexInCollect : Prop :=
  ∀ (s : State) (c : RunCtx), s.MapLaw → s.runs.active = some c → c.phase = .collect →
    ∃ u, exec .indexEvent { s with runs := { s.runs with active := none } } = .next u ∧
      let v : State := { u with runs := s.runs, index := { rev := s.index.rev + 1, timer := some s.settings.indexTimeout } }
      let c1 : RunCtx := { c with phaseRevs := c.phaseRevs + 1, collectRevs := c.collectRevs + 1 }
      let settled : Prop := ∀ (h : Head) (w : Nat), c.heads.get h = true → w < s.settings.wedges →
        (s.cell h w).state = .excluded ∨ (s.cell h w).state = .suspect ∨ (s.cell h w).state = .converged
      (c.desc.kind = .verify → c.phaseRevs + 1 < c.depth →
        exec .indexEvent s = .next { v with runs := { s.runs with active := some c1 } })
      ∧ (c.desc.kind = .verify → c.depth ≤ c.phaseRevs + 1 →
        exec .indexEvent s = .next (v.conclude c1 .complete .none (PerHead.all .none)))
      ∧ (c.desc.kind = .learn → settled →
        exec .indexEvent s = .next (v.conclude c1 .complete .none (PerHead.all .none)))
      ∧ (c.desc.kind = .learn → ¬ settled → c.phaseRevs + 1 < c.desc.budget →
        exec .indexEvent s = .next { v with runs := { s.runs with active := some c1 } })
      ∧ (c.desc.kind = .learn → ¬ settled → c.desc.budget ≤ c.phaseRevs + 1 →
          c.desc.noRetry = false → c.retries < s.settings.retryLimit →
        let c2 : RunCtx :=
          if c.desc.settle = 0 then
            { c1 with retries := c.retries + 1, phase := .collect, settleCounter := 0,
                      collectStart := some (s.index.rev + 1), phaseRevs := 0 }
          else { c1 with retries := c.retries + 1, phase := .settle, settleCounter := c.desc.settle, phaseRevs := 0 }
        ∃ m, exec .indexEvent s = .next { v with map := m, runs := { s.runs with active := some c2 } }
          ∧ ∀ (h : Head) (w : Nat), cellAt m h w =
              if c.heads.get h = true ∧ w < 512 then
                { u.cell h w with
                  sum := 0
                  count := 0
                  outliers := if (s.perms.learning.get h).cs = true ∧ (s.cell h w).state ≠ .suspect then 0
                              else (s.cell h w).outliers }
              else u.cell h w)
      ∧ (c.desc.kind = .learn → ¬ settled → c.desc.budget ≤ c.phaseRevs + 1 →
          c.desc.noRetry = true ∨ s.settings.retryLimit ≤ c.retries →
        exec .indexEvent s = .next (v.conclude c1 .exhausted .none (PerHead.all .none)))

/-- An index pulse in MINUS_COLLECT, after its publications: the M-th revolution ends the GAIN run Complete with the injection
removed, each run head's gain computed from its phase sums, a gain in 8192..32767 made pending, and a fault left in the result
alone (R111, R112, R117, R118). A publication of this index that is still to come takes no gain where one has been made pending
here: that gain waits for the next index (R75, R77). G_old is the gain after the publications that the index makes within its own
step, so a pending gain taken at the concluding index counts: the Publication Unit goes before the Run Controller, which R20
leaves open, and that order is the model's choice (log 6, DEDUCED; log 29). -/
def Obligations.GainRunEnds : Prop :=
  ∀ (s : State) (c : RunCtx), s.runs.active = some c → c.phase = .minusCollect →
    ∃ u, exec .indexEvent { s with runs := { s.runs with active := none } } = .next u ∧
      let v : State := { u with runs := s.runs, index := { rev := s.index.rev + 1, timer := some s.settings.indexTimeout } }
      let c1 : RunCtx := { c with phaseRevs := c.phaseRevs + 1, collectRevs := c.collectRevs + 1 }
      (c.phaseRevs + 1 < c.desc.phaseRevs →
        exec .indexEvent s = .next { v with runs := { s.runs with active := some c1 } })
      ∧ (c.desc.phaseRevs ≤ c.phaseRevs + 1 →
        ∃ (gains : PerHead GainResult) (ps : PerHead Profile) (due : List DueHead),
          exec .indexEvent s = .next
            (State.conclude { v with profiles := ps, publishing := due } { c1 with injection := .off } .complete .none gains)
          ∧ due = u.publishing.map (fun d => { d with
              gainFound := d.gainFound && match gains.get d.head with
                | .gain _ => false
                | .none | .insufficient | .nonPositiveStep | .gainRange => true })
          ∧ ∀ h : Head,
            (c.heads.get h = false → gains.get h = .none)
            ∧ (c.heads.get h = true → gains.get h =
              (let p := c.sums.get h
               let d := rounded p.plusSum p.plusCount - rounded p.minusSum p.minusCount
               if 2 * p.plusCount < s.settings.wedges * c.desc.phaseRevs
                   ∨ 2 * p.minusCount < s.settings.wedges * c.desc.phaseRevs then .insufficient
               else if d ≤ 0 then .nonPositiveStep
               else if rounded ((u.profile h).gain * (2 * c.desc.step)) d.toNat < 8192
                   ∨ 32767 < rounded ((u.profile h).gain * (2 * c.desc.step)) d.toNat then .gainRange
               else .gain (rounded ((u.profile h).gain * (2 * c.desc.step)) d.toNat).toNat))
            ∧ ps.get h = (match gains.get h with
              | .gain g => { u.profile h with pendingGain := some g }
              | .none | .insufficient | .nonPositiveStep | .gainRange => u.profile h))


/-! ### Runs -/

/-- The conclusion of a run: its result is queued behind the results that wait, with its entries in ascending order of head;
the sums and counts of its heads are emptied; their auto-publish marks are cleared; the publish pending marks are set for
Complete and Exhausted, and the pending gains discarded for Aborted and Faulted; the index timer stops, and RunEnded is set
(R98, R99, R106, R107). A publication of a run head that is still to come does not clear the mark that Complete or Exhausted
sets (R79; log 29). -/
def Obligations.ConclusionEffects : Prop :=
  ∀ (s : State) (c : RunCtx) (o : RunOutcome) (cause : RunCause) (gains : PerHead GainResult), s.MapLaw →
    ∃ (m : PerHead (Sparse Cell)) (ps : PerHead Profile) (r : RunResult),
      s.conclude c o cause gains = { s with
        map := m
        profiles := ps
        publishing := s.publishing.map fun d =>
          if c.heads.get d.head = true ∧ (o = .complete ∨ o = .exhausted) then { d with marked := false } else d
        index := { s.index with timer := none }
        runs := { s.runs with active := none, results := s.runs.results ++ [r] }
        bench := { s.bench with flags := { s.bench.flags with runEnded := true } } }
      ∧ (∀ (h : Head) (w : Nat), cellAt m h w =
          if c.heads.get h = true ∧ w < s.settings.wedges then { s.cell h w with sum := 0, count := 0 } else s.cell h w)
      ∧ (∀ h : Head, ps.get h =
          if c.heads.get h = true then
            { s.profile h with
              autoPublish := false
              publishPending := (s.profile h).publishPending || decide (o = .complete ∨ o = .exhausted)
              pendingGain := if o = .complete ∨ o = .exhausted then (s.profile h).pendingGain else none }
          else s.profile h)
      ∧ r.tag = c.desc.tag ∧ r.kind = c.desc.kind ∧ r.outcome = o ∧ r.cause = cause
      ∧ r.collectRevs = c.collectRevs ∧ r.retries = c.retries ∧ r.totals = c.totals
      ∧ r.entries.map HeadEntry.head
          = [(0 : Head), 1, 2, 3, 4, 5, 6, 7].filter (fun h => c.heads.get h || c.skipped.get h)
      ∧ ∀ e ∈ r.entries,
        (c.heads.get e.head = false → e = { head := e.head, skipped := true })
        ∧ (c.heads.get e.head = true →
            let ws := List.range s.settings.wedges
            let st := fun w => (s.cell e.head w).state
            let mark := fun v => (ws.filter fun w =>
              st w != .excluded && st w != .suspect && c.verdict e.head w == v).length
            let good := ws.filter fun w => st w != .excluded
            e = { head := e.head
                  skipped := false
                  excluded := (ws.filter fun w => st w == .excluded).length
                  suspect := (ws.filter fun w => st w == .suspect).length
                  unmeasured := mark .unmeasured
                  converged := mark .converged
                  learning := mark .learning
                  peak := c.peaks.get e.head
                  offset := if good = [] then 0
                            else rounded (good.map fun w => (s.cell e.head w).working).sum good.length
                  gain := gains.get e.head })

/-- A run ended before its time concludes with no gain: by the index timer as Faulted SpindleLost, by Halt Run and by
Feed-Forward Off as Aborted. With no run active Halt Run is refused NotFound and Feed-Forward Off only turns feed-forward
off (R60, R100, R101, R140). -/
def Obligations.RunsEndedEarly : Prop :=
  ∀ s : State,
    (∀ (c : RunCtx) (ms : Nat), s.runs.active = some c → s.index.timer = some ms →
      exec .indexTimerExpiry s =
        .next (State.raise (s.conclude c .faulted .spindleLost (PerHead.all .none)) .spindleLost))
    ∧ (s.LinkOpen →
      (∀ c : RunCtx, s.runs.active = some c →
        exec .haltRun s = .next { s.conclude c .aborted .haltRun (PerHead.all .none) with
          bench := { s.bench with flags := { s.bench.flags with runEnded := true }, lastOutcome := .accepted } }
        ∧ exec .feedForwardOff s = .next { s.conclude c .aborted .feedForwardOff (PerHead.all .none) with
            settings := { s.settings with feedForward := false }
            bench := { s.bench with flags := { s.bench.flags with runEnded := true }, lastOutcome := .accepted } })
      ∧ (s.runs.active = none →
        exec .haltRun s = .next (s.refuse .notFound)
        ∧ exec .feedForwardOff s = .next { s with
            settings := { s.settings with feedForward := false }
            bench := { s.bench with lastOutcome := .accepted } }))

/-- A run starts from the oldest descriptor: it leaves the Run Queue, the heads without an import fault are the run's heads,
their cells take the revolution as their effective one and hold no stamp, ResetCells of a LEARN run empties them by
permission, their auto-publish marks are set and the index timer starts. With no such head the run concludes at once as
Faulted NoHeads (R87 to R91, R93, R112). The run's serial, by which a record held is known to be of the same run (R42), is the
number of runs started before it: the model's own (log 12). -/
def Obligations.RunStarts : Prop :=
  ∀ (s : State) (d : Descriptor) (rest : List Descriptor), s.MapLaw → s.runs.active = none → s.runs.queue = d :: rest →
    s.runs.results.length < 8 → s.startup.unitState = .ready → s.settings.feedForward = true → s.sweep = none →
    ∃ c : RunCtx,
      (∀ h : Head, c.heads.get h = (d.heads.get h && !(s.profile h).importFault)
        ∧ c.skipped.get h = (d.heads.get h && (s.profile h).importFault)
        ∧ c.peaks.get h = 0 ∧ c.sums.get h = { plusSum := 0, plusCount := 0, minusSum := 0, minusCount := 0 }
        ∧ ∀ w, c.verdict h w = .unmeasured)
      ∧ c.desc = d ∧ c.depth = s.settings.depth ∧ c.settleCounter = d.settle + 1 ∧ c.collectStart = none
      ∧ c.phase = (if d.kind = .gain then .plusSettle else .settle)
      ∧ c.injection = (if d.kind = .gain then .plus else .off)
      ∧ c.serial = s.runs.serial ∧ c.phaseRevs = 0 ∧ c.collectRevs = 0 ∧ c.retries = 0 ∧ c.totals.words = List.replicate 12 0
      ∧ ((∀ h, c.heads.get h = false) →
          exec .runStart s = .next (State.conclude { s with runs := { s.runs with queue := rest } } c .faulted .noHeads
            (PerHead.all .none)))
      ∧ ((∃ h, c.heads.get h = true) →
          ∃ (m : PerHead (Sparse Cell)) (ps : PerHead Profile),
            exec .runStart s = .next { s with
              map := m
              profiles := ps
              index := { s.index with timer := some s.settings.indexTimeout }
              runs := { s.runs with queue := rest, active := some c, serial := s.runs.serial + 1 } }
            ∧ (∀ h : Head, ps.get h =
                if c.heads.get h = true then { s.profile h with autoPublish := true } else s.profile h)
            ∧ ∀ (h : Head) (w : Nat),
              let o := s.cell h w
              let perm := s.perms.learning.get h
              cellAt m h w =
                if c.heads.get h = true ∧ w < s.settings.wedges then
                  (if d.kind = .learn ∧ d.resetCells = true ∧ o.state ≠ .excluded then
                    { o with
                      working := if perm.wc then 0 else o.working
                      dirty := o.dirty || (perm.wc && o.working != 0)
                      state := if perm.cs then .learning else o.state
                      effRev := s.index.rev
                      lastStamp := none }
                  else { o with effRev := s.index.rev, lastStamp := none })
                else o)

/-- The commands on the Run Queue: Enqueue Run places a descriptor of its words, clamped and with its heads reduced to the
configured ones, behind the others; Cancel Queued removes the descriptors of a tag (R83, R84, R86). -/
def Obligations.RunQueueCommands : Prop :=
  ∀ s : State, s.LinkOpen →
    (∀ w1 w2 w3 w4 w5 w6 w7 : Word,
      let heads : HeadSet := PerHead.ofFn fun h => w2.getLsbD h.val && decide (h.val < s.settings.headsInstalled)
      let kindNo := w1.toNat / 256 % 4
      exec (.enqueueRun w1 w2 w3 w4 w5 w6 w7) s = .next
        (if kindNo = 3 then s.refuse .badParameter
         else if heads = PerHead.all false then s.refuse .badParameter
         else if 8 ≤ s.runs.queue.length then s.refuse .queueFull
         else { s with
          runs := { s.runs with queue := s.runs.queue ++
            [{ tag := w1.toNat % 256
               kind := if kindNo = 0 then .learn else if kindNo = 1 then .verify else .gain
               heads := heads
               track := w3
               settle := min 15 w4.toNat
               budget := max 1 (min 1023 w5.toNat)
               noRetry := w2.getLsbD 8
               autoExclude := w2.getLsbD 9
               resetCells := w2.getLsbD 10
               step := max 16 (min 256 w6.toNat)
               phaseRevs := max 1 (min 16 w7.toNat) }] }
          bench := { s.bench with lastOutcome := .accepted } }))
    ∧ ∀ tag : Word,
      ((∀ d ∈ s.runs.queue, d.tag ≠ tag.toNat % 256) → exec (.cancelQueued tag) s = .next (s.refuse .notFound))
      ∧ ((∃ d ∈ s.runs.queue, d.tag = tag.toNat % 256) →
          exec (.cancelQueued tag) s = .next { s with
            runs := { s.runs with queue := s.runs.queue.filter fun d => d.tag != tag.toNat % 256 }
            bench := { s.bench with lastOutcome := .accepted } })


/-! ### The Learning Engine -/

/-- The Learning Engine takes the oldest record. A Weak or Inconsistent one is discarded; one with a position error writes
its head's monitor, and is held for admission when its head is a head of the active run in a collect phase (R29, R36, R39,
R41). -/
def Obligations.RecordTaken : Prop :=
  ∀ (s : State) (r : Record) (rest : List Record), s.held = none → s.capture.fifo = r :: rest →
    exec .learningTakeRecord s = .next
      (let s0 : State := { s with capture := { s.capture with fifo := rest } }
       match positionError s.settings.amin (s.profile r.head).gain r.a r.b r.c r.d with
       | .weak => s0.countDiscard .weak
       | .inconsistent => s0.countDiscard .inconsistent
       | .error e =>
         { s0 with
           profiles := s.profiles.set r.head
             { s.profile r.head with monitor := some { pes := e, wedge := r.wedge, stamp := r.stamp } }
           held :=
             match s.runs.active with
             | none => none
             | some c =>
               if c.heads.get r.head = true ∧ (c.phase = .collect ∨ c.phase = .plusCollect ∨ c.phase = .minusCollect) then
                 some { head := r.head, wedge := r.wedge, track := r.track, stamp := r.stamp, e := e, run := c.serial }
               else none })

/-- A granted Learning Engine operation on a record that the active run cannot take (no run, another run, a head outside the
run, no collect phase) finishes it uncounted; and the seven checks of a LEARN or VERIFY sample are taken in their order, the
first that holds naming the discard (R42, R63). -/
def Obligations.SampleChecksInOrder : Prop :=
  ∀ (s : State) (r : HeldRecord), s.held = some r → (∀ q, s.ff.server ≠ .forming q) →
    ((∀ c, s.runs.active = some c → c.heads.get r.head = false ∨ c.serial ≠ r.run
        ∨ (c.phase ≠ .collect ∧ c.phase ≠ .plusCollect ∧ c.phase ≠ .minusCollect)) →
      exec .learningOperation s = .next { s with held := none })
    ∧ ∀ c : RunCtx, s.runs.active = some c → c.heads.get r.head = true → c.serial = r.run → c.phase = .collect →
      c.desc.kind ≠ .gain →
      let cell := s.cell r.head r.wedge
      let checks : List (Discard × Bool) :=
        [(.offTrack, r.track != c.desc.track),
          (.early, match c.collectStart with | none => false | some q => earlier r.stamp q),
          (.suspect, cell.state == .suspect),
          (.excluded, cell.state == .excluded),
          (.stale, cell.dirty || earlier r.stamp cell.effRev),
          (.duplicate, cell.lastStamp == some r.stamp),
          (.outlier, decide (s.settings.outlierLimit < r.e.natAbs))]
      ∀ d ok, checks.find? Prod.snd = some (d, ok) → d ≠ .outlier →
        exec .learningOperation s = .next (State.countDiscard { s with held := none } d)

/-- A LEARN or VERIFY sample that fails the last check alone is an Outlier: by the Learning writer's CS the cell's outlier
count rises, at K the cell is Suspect, and with AutoExclude a cell so turned asks the Exclusion Table to enter it (R67,
R149). -/
def Obligations.OutlierSamples : Prop :=
  ∀ (s : State) (r : HeldRecord) (c : RunCtx), s.MapLaw → s.held = some r → (∀ q, s.ff.server ≠ .forming q) →
    s.runs.active = some c → c.heads.get r.head = true → c.serial = r.run → c.phase = .collect → c.desc.kind ≠ .gain →
    s.configured r.head r.wedge = true → r.track = c.desc.track →
    (∀ q, c.collectStart = some q → earlier r.stamp q = false) →
    (s.cell r.head r.wedge).state ≠ .suspect → (s.cell r.head r.wedge).state ≠ .excluded →
    (s.cell r.head r.wedge).dirty = false → earlier r.stamp (s.cell r.head r.wedge).effRev = false →
    (s.cell r.head r.wedge).lastStamp ≠ some r.stamp → s.settings.outlierLimit < r.e.natAbs →
    let o := s.cell r.head r.wedge
    let n := if o.outliers < 15 then o.outliers + 1 else o.outliers
    ((s.perms.learning.get r.head).cs = false →
      exec .learningOperation s = .next (State.countDiscard { s with held := none } .outlier))
    ∧ ((s.perms.learning.get r.head).cs = true →
      ∃ m, exec .learningOperation s = .next (State.countDiscard { s with
          held := none
          map := m
          autoRequests := if s.settings.suspectCount ≤ n ∧ c.desc.autoExclude = true
                          then s.autoRequests ++ [(r.head, r.wedge)] else s.autoRequests } .outlier)
        ∧ ∀ (h : Head) (w : Nat), cellAt m h w =
            if h = r.head ∧ w = r.wedge then
              { o with outliers := n, state := if s.settings.suspectCount ≤ n then .suspect else o.state }
            else s.cell h w)

/-- An admitted LEARN or VERIFY sample is accumulated into its cell. The D-th forms the average, by which a LEARN run moves
the working correction, the cell is marked Converged or Learning, each by permission, the peak residual and the verdict mark
are written and the sum and count begin afresh (R69 to R72, R97). -/
def Obligations.AdmittedSamples : Prop :=
  ∀ (s : State) (r : HeldRecord) (c : RunCtx), s.MapLaw → s.held = some r → (∀ q, s.ff.server ≠ .forming q) →
    s.runs.active = some c → c.heads.get r.head = true → c.serial = r.run → c.phase = .collect → c.desc.kind ≠ .gain →
    s.configured r.head r.wedge = true → r.track = c.desc.track →
    (∀ q, c.collectStart = some q → earlier r.stamp q = false) →
    (s.cell r.head r.wedge).state ≠ .suspect → (s.cell r.head r.wedge).state ≠ .excluded →
    (s.cell r.head r.wedge).dirty = false → earlier r.stamp (s.cell r.head r.wedge).effRev = false →
    (s.cell r.head r.wedge).lastStamp ≠ some r.stamp → r.e.natAbs ≤ s.settings.outlierLimit →
    let o := s.cell r.head r.wedge
    let perm := s.perms.learning.get r.head
    let avg := rounded (o.sum + r.e) c.depth
    let moved := max (-(s.settings.cmax : Int)) (min s.settings.cmax (o.working - rounded (avg * s.settings.learnGain) 8))
    let new := if c.desc.kind = .learn ∧ perm.wc = true then moved else o.working
    let verdict : Verdict := if avg.natAbs ≤ s.settings.threshold then .converged else .learning
    (o.count + 1 < c.depth →
      ∃ m, exec .learningOperation s = .next { s with held := none, map := m }
        ∧ ∀ (h : Head) (w : Nat), cellAt m h w =
            if h = r.head ∧ w = r.wedge then { o with sum := o.sum + r.e, count := o.count + 1, lastStamp := some r.stamp }
            else s.cell h w)
    ∧ (c.depth ≤ o.count + 1 →
      ∃ (m : PerHead (Sparse Cell)) (c' : RunCtx),
        exec .learningOperation s = .next { s with
          held := none, map := m, runs := { s.runs with active := some c' } }
        ∧ (∀ (h : Head) (w : Nat), cellAt m h w =
            if h = r.head ∧ w = r.wedge then
              { o with
                working := new
                dirty := decide (new ≠ o.working)
                state := if perm.cs = false then o.state
                         else if avg.natAbs ≤ s.settings.threshold then .converged else .learning
                sum := 0
                count := 0
                lastStamp := some r.stamp }
            else s.cell h w)
        ∧ c' = { c with verdicts := c'.verdicts, peaks := c.peaks.set r.head (max (c.peaks.get r.head) avg.natAbs) }
        ∧ ∀ (h : Head) (w : Nat), c'.verdict h w =
            if h = r.head ∧ w = r.wedge then verdict else c.verdict h w)

/-- A GAIN sample: the first of its four checks that holds discards it under its cause; one that passes them is added to its
head's sum for the phase, unless the count stands at 65535, and no field of a cell is written (R114, R115). -/
def Obligations.GainSamples : Prop :=
  ∀ (s : State) (r : HeldRecord) (c : RunCtx), s.held = some r → (∀ q, s.ff.server ≠ .forming q) →
    s.runs.active = some c → c.heads.get r.head = true → c.serial = r.run → c.phase = .plusCollect ∨ c.phase = .minusCollect →
    c.desc.kind = .gain →
    exec .learningOperation s = .next
      (let s0 : State := { s with held := none }
       let p := c.sums.get r.head
       if r.track ≠ c.desc.track then s0.countDiscard .offTrack
       else if (c.collectStart.map (earlier r.stamp)).getD false = true then s0.countDiscard .early
       else if (s.cell r.head r.wedge).state = .excluded then s0.countDiscard .excluded
       else if s.settings.outlierLimit < r.e.natAbs then s0.countDiscard .outlier
       else
         let p' : PhaseSums :=
           if c.phase = .plusCollect then
             (if p.plusCount < 65535 then { p with plusSum := p.plusSum + r.e, plusCount := p.plusCount + 1 } else p)
           else
             (if p.minusCount < 65535 then { p with minusSum := p.minusSum + r.e, minusCount := p.minusCount + 1 } else p)
         { s0 with runs := { s.runs with active := some { c with sums := c.sums.set r.head p' } } })


/-! ### Feed-forward -/

/-- A request word withdraws what was outstanding, sets the port mark and restarts the count of reply words. A request for
another unit's head leaves the server Idle; one for this unit's is answered at once NotReady, Hold, Unconfigured or
OutOfRange, the first that applies, or goes to the Map Arbiter; its Replaced flag is the port mark it found (R123, R125, R127,
R128). -/
def Obligations.RequestsJudged : Prop :=
  ∀ (s : State) (w : Word),
    let head : Head := Fin.ofNat 8 (w.toNat / 4096)
    let wedge := w.toNat / 8 % 512
    let plain := fun reason : Reason => FFState.replying
      { value := 0, reason := reason, offset := 0, replaced := s.ff.portMark, injecting := false } false
    exec (.ffRequest w) s = .next { s with ff := { s.ff with
      portMark := true
      wordsTaken := 0
      server :=
        if w.toNat / 4096 / 8 ≠ s.startup.unitNo.val then .idle
        else if s.startup.unitState ≠ .ready then plain .notReady
        else if s.settings.feedForward = false then plain .hold
        else if s.settings.headsInstalled ≤ head.val then plain .unconfigured
        else if s.settings.wedges ≤ wedge then plain .outOfRange
        else .forming { head := head, wedge := wedge, replaced := s.ff.portMark } } }

/-- A granted Feed-Forward Server operation judges the request again, and otherwise forms its reply: the target wedge lies the
head's lead after the wedge named; the base is its published correction, or, where it is Excluded, the rounded mean of the
nearest good wedges before and after it around the ring, 0 with none; the offset is split off, the injection added, the sum
clamped and the polarity applied (R128 to R137). -/
def Obligations.ReplyComposed : Prop :=
  ∀ (s : State) (q : FFRequest), s.ff.server = .forming q →
    let W := s.settings.wedges
    let plain := fun reason : Reason => FFState.replying
      { value := 0, reason := reason, offset := 0, replaced := q.replaced, injecting := false } false
    (s.startup.unitState ≠ .ready →
      exec .ffOperation s = .next { s with ff := { s.ff with server := plain .notReady } })
    ∧ (s.startup.unitState = .ready → s.settings.feedForward = false →
      exec .ffOperation s = .next { s with ff := { s.ff with server := plain .hold } })
    ∧ (s.startup.unitState = .ready → s.settings.feedForward = true → s.settings.headsInstalled ≤ q.head.val →
      exec .ffOperation s = .next { s with ff := { s.ff with server := plain .unconfigured } })
    ∧ (s.startup.unitState = .ready → s.settings.feedForward = true → q.head.val < s.settings.headsInstalled →
        W ≤ q.wedge → exec .ffOperation s = .next { s with ff := { s.ff with server := plain .outOfRange } })
    ∧ (s.startup.unitState = .ready → s.settings.feedForward = true → q.head.val < s.settings.headsInstalled →
        q.wedge < W →
        ∃ (base step : Int) (reason : Reason),
          let p := s.profile q.head
          let t := (q.wedge + p.lead) % W
          let good := fun w => (s.cell q.head w).state ≠ .excluded
          let v := max (-(s.settings.cmax : Int)) (min s.settings.cmax
            ((if p.offsetSplit then base - p.offset else base) + step))
          let reply : FFReply :=
            { value := if p.inverted then -v else v
              reason := reason
              offset := if p.offsetSplit then p.offset else 0
              replaced := q.replaced
              injecting :=
                match s.runs.active with
                | none => false
                | some c => c.heads.get q.head && c.injection != .off }
          exec .ffOperation s = .next { s with ff := { s.ff with server := .replying reply false } }
          ∧ step = (match s.runs.active with
              | none => 0
              | some c =>
                if c.heads.get q.head = false then 0
                else match c.injection with | .off => 0 | .plus => c.desc.step | .minus => -(c.desc.step : Int))
          ∧ (good t → base = (s.cell q.head t).published ∧ reason = .normal)
          ∧ (¬ good t → reason = .interpolated
              ∧ ((∀ w, w < W → ¬ good w) → base = 0)
              ∧ ∀ i j, 1 ≤ i → i < W → 1 ≤ j → j < W →
                good ((t + W - i) % W) → (∀ k, 1 ≤ k → k < i → ¬ good ((t + W - k) % W)) →
                good ((t + j) % W) → (∀ k, 1 ≤ k → k < j → ¬ good ((t + k) % W)) →
                base = rounded ((s.cell q.head ((t + W - i) % W)).published + (s.cell q.head ((t + j) % W)).published) 2))

/-- A reply strobe takes the two words of the reply this unit holds in turn, after the second of which the server is Idle,
counts a word of the other unit's reply, and where neither holds one takes nothing and finds 0 on the port; the second word taken
clears the port mark. The words carry the value and the reason, the offset and the two flags (R126, R127, R204, 12.4). That `out`
holds no word where the other unit drove it is the model's choice (log 11). -/
def Obligations.ReplyStrobes : Prop :=
  (∀ (s : State) (other : Bool),
    let counted : FFServer := { s.ff with
      wordsTaken := s.ff.wordsTaken + 1, portMark := if s.ff.wordsTaken = 1 then false else s.ff.portMark }
    (∀ r, s.ff.server = .replying r false →
      exec (.ffReplyStrobe other) s = .next { s with ff := { counted with server := .replying r true, out := some r.word1 } })
    ∧ (∀ r, s.ff.server = .replying r true →
      exec (.ffReplyStrobe other) s = .next { s with ff := { counted with server := .idle, out := some r.word2 } })
    ∧ ((∀ r taken, s.ff.server ≠ .replying r taken) →
      exec (.ffReplyStrobe other) s = .next { s with ff := { (if other then counted else s.ff) with out := if other then none else some 0 } }))
  ∧ ∀ r : FFReply, withinRange r.value → withinRange r.offset →
    r.word1.toInt / 16 = r.value
    ∧ r.word1.toNat % 16 = (match r.reason with
        | .normal => 0 | .interpolated => 1 | .hold => 2 | .notReady => 3 | .unconfigured => 4 | .outOfRange => 5)
    ∧ r.word2.toInt / 16 = r.offset
    ∧ r.word2.getLsbD 3 = false ∧ r.word2.getLsbD 2 = false
    ∧ r.word2.getLsbD 1 = r.replaced ∧ r.word2.getLsbD 0 = r.injecting

/-! ### Sweeps and start-up -/

/-- A granted sweep step writes the next cell of the sweep and moves on, wedge by wedge and head by head; a Fill writes by the
Sweep writer's permissions, every other sweep the start-up values with the revolution count. After the last cell a Fill clears
the import faults of the heads whose wedges it covered, and the sweep of a start-up test ends that phase of it (R24 to R28,
R158, R198). That a Fill writes the value clamped when its command was taken, whatever Cmax has become since, is R27's; that R7
and R191 do not clamp it again at the write is the model's choice (log 33), and so is that the end of a sweep leaves a published
offset as a publication during the sweep has made it (R76, R82; log 34). -/
def Obligations.SweepWrites : Prop :=
  ∀ (s : State) (k : Sweep), s.MapLaw → s.sweep = some k → (∀ q, s.ff.server ≠ .forming q) → s.held = none →
    (∀ left crc, s.bench.stream ≠ some { kind := .map left crc, words := [] }) →
    ∃ m : PerHead (Sparse Cell),
      (∀ (h : Head) (w : Nat), h ≠ k.nextHead ∨ w ≠ k.nextWedge → cellAt m h w = s.cell h w)
      ∧ (∀ v loaded, k.kind = .fill v loaded →
          let o := s.cell k.nextHead k.nextWedge
          let perm := s.perms.sweep.get k.nextHead
          cellAt m k.nextHead k.nextWedge = { o with
            working := if perm.wc then v else o.working
            dirty := o.dirty || (perm.wc && v != o.working)
            state := if perm.cs = true ∧ o.state ≠ .excluded then (if loaded then .loaded else .empty) else o.state
            sum := 0
            count := 0 })
      ∧ ((∀ v loaded, k.kind ≠ .fill v loaded) →
          cellAt m k.nextHead k.nextWedge =
            { working := 0, published := 0
              state := if (s.cell k.nextHead k.nextWedge).state = .excluded then .excluded else .empty
              outliers := 0, sum := 0, count := 0, dirty := false, effRev := s.index.rev, lastStamp := none })
      ∧ (k.nextWedge < k.lastWedge →
          exec .sweepStep s = .next { s with map := m, sweep := some { k with nextWedge := k.nextWedge + 1 } })
      ∧ (k.nextWedge = k.lastWedge → k.nextHead.val < k.lastHead.val →
          exec .sweepStep s = .next { s with
            map := m, sweep := some { k with nextHead := k.nextHead + 1, nextWedge := k.firstWedge } })
      ∧ (k.nextWedge = k.lastWedge → k.nextHead = k.lastHead →
          (∀ v loaded, k.kind = .fill v loaded →
            ∃ ps, exec .sweepStep s = .next { s with map := m, sweep := none, profiles := ps }
              ∧ ∀ h : Head, ps.get h =
                  if k.firstHead.val ≤ h.val ∧ h.val ≤ k.lastHead.val ∧ k.firstWedge = 0 ∧ s.settings.wedges ≤ k.lastWedge + 1
                  then { s.profile h with importFault := false } else s.profile h)
          ∧ (k.kind = .geometry → exec .sweepStep s = .next { s with map := m, sweep := none })
          ∧ (k.kind = .selfTest ∨ k.kind = .powerOn → ∀ own, s.startup.phase = .sweeping own →
              let t : State := { s with map := m, sweep := none, startup := { s.startup with phase := .swept own } }
              exec .sweepStep s = .next
                (if s.startup.unitState = .starting ∧ s.startup.checkOpen = false
                    ∧ (s.startup.presence ≠ .present ∨ s.startup.verdict ≠ .waiting)
                 then t.finishTest own else t)))

/-- Power-on gives every state its power-on value and reads the strap; the end of the memory test keeps what it found, empties
the Exclusion Table, prepares the map and the head profiles and starts the sweep of the whole grid (R196 to R198). The model's
choices in it: the level of the strap is the step's operand (log 7); the PRES line that a primary watches keeps its level, and
falls where the unit itself drove it as a secondary (log 19, log 32); a line that stands asserted as the test begins is recorded
Present at once (log 18, from R200); no memory fault is kept over power-on (log 22); after a test that finds a fault, the
contents, which R197 has as the faulty memory holds them, stand as they were, the preparation apart (log 9, DEDUCED); and the
steps that wait, the schedule of publications and the order of auto-exclusions are not the part's (log 1, log 13, log 29). -/
def Obligations.PowerOnAndMemoryTest : Prop :=
  (∀ (s : State) (strap : Bool),
    let line := !strap && s.startup.unitNo == 0 && s.startup.presLine
    exec (.powerOnReset strap) s = .next { State.reset with
      startup :=
        { unitState := .starting, unitNo := if strap then 1 else 0, strap := strap, testCode := 0, phase := .memoryTest
          powerOnTest := true, memoryFault := false
          presence := if strap then .secondary else if line then .present else .unknown
          checkOpen := !strap && !line, verdict := .waiting, presLine := line, passOut := false }
      publishAtOnce := s.publishAtOnce
      autoOrder := s.autoOrder
      pending := s.pending })
  ∧ ∀ (s : State) (own : MemoryResult), s.MapLaw → s.startup.unitState = .starting → s.startup.phase = .memoryTest →
    ∃ (m : PerHead (Sparse Cell)) (ps : PerHead Profile),
      exec (.memoryTestEnd own) s = .next { s with
        map := m
        profiles := ps
        exclusions := []
        sweep := some { kind := if s.startup.powerOnTest then .powerOn else .selfTest, firstHead := 0, lastHead := 7,
                        firstWedge := 0, lastWedge := 511, nextHead := 0, nextWedge := 0 }
        startup := { s.startup with phase := .sweeping own, memoryFault := own != .pass } }
      ∧ (∀ (h : Head) (w : Nat), cellAt m h w =
          { s.cell h w with state := if (s.cell h w).state = .excluded then .empty else (s.cell h w).state })
      ∧ ∀ h : Head, ps.get h = { s.profile h with
          offset := 0, importFault := false, publishPending := false, pendingGain := none }

/-- The pair handshake and the end of a start-up test: a primary that checks records its secondary Present or Absent and watches
for Passed, a missing one of which sets PairFault; when nothing is left to wait for the test ends with its code, Ready or
Failed, a Failed unit losing its Run Queue and publish pending marks, a secondary that passes asserting Passed, and StartupDone
is set (R199 to R201; log 17, log 18, log 19). That a publication still to come is kept by a unit that becomes Failed is the
model's choice (R74, R203; log 29). -/
def Obligations.PairHandshake : Prop :=
  ∀ s : State,
    (∀ own : MemoryResult, ∃ ps : PerHead Profile,
      s.finishTest own = { s with
        startup := { s.startup with
          unitState := if own = .pass then .ready else .failed
          testCode := (match own with | .pass => 0x01 | .mapFault => 0x02 | .queueFault => 0x03)
            + (if s.startup.verdict = .failed then 0x80 else 0)
          phase := .none
          passOut := s.startup.passOut || (own == .pass && s.startup.unitNo == 1) }
        runs := { s.runs with queue := if own = .pass then s.runs.queue else [] }
        profiles := ps
        bench := { s.bench with flags := { s.bench.flags with startupDone := true } } }
      ∧ ∀ h : Head, ps.get h =
          { s.profile h with publishPending := if own = .pass then (s.profile h).publishPending else false })
    ∧ exec .presentRelease s = .next { s with startup := { s.startup with presLine := false } }
    ∧ (s.startup.unitNo ≠ 0 ∨ s.startup.unitState ≠ .starting ∨ s.startup.checkOpen = false →
        exec .secondaryPresentAssert s = .next { s with startup := { s.startup with presLine := true } })
    ∧ (s.startup.unitNo = 0 → s.startup.unitState = .starting → s.startup.checkOpen = true →
        let found : State := { s with startup := { s.startup with presLine := true, presence := .present, checkOpen := false } }
        let gone : State := { s with startup := { s.startup with presence := .absent, checkOpen := false } }
        let here : State := { s with startup := { s.startup with presence := .present, checkOpen := false } }
        ((∀ own, s.startup.phase ≠ .swept own) →
          exec .secondaryPresentAssert s = .next found ∧ exec .presentSeen s = .next found
          ∧ (s.startup.presLine = false → exec .presenceWindowExpiry s = .next gone)
          ∧ (s.startup.presLine = true → exec .presenceWindowExpiry s = .next here))
        ∧ ∀ own, s.startup.phase = .swept own →
          (s.startup.verdict = .waiting →
            exec .secondaryPresentAssert s = .next found ∧ exec .presentSeen s = .next found
            ∧ (s.startup.presLine = true → exec .presenceWindowExpiry s = .next here))
          ∧ (s.startup.verdict ≠ .waiting →
            exec .secondaryPresentAssert s = .next (found.finishTest own)
            ∧ exec .presentSeen s = .next (found.finishTest own)
            ∧ (s.startup.presLine = true → exec .presenceWindowExpiry s = .next (here.finishTest own)))
          ∧ (s.startup.presLine = false → exec .presenceWindowExpiry s = .next (gone.finishTest own)))
    ∧ (s.startup.unitNo = 0 → s.startup.unitState = .starting → s.startup.verdict = .waiting →
        s.startup.checkOpen = true ∨ s.startup.presence = .present →
        let seen : State := { s with startup := { s.startup with verdict := .passed } }
        ((s.startup.checkOpen = true ∨ ∀ own, s.startup.phase ≠ .swept own) → exec .passedSeen s = .next seen)
        ∧ ∀ own, s.startup.checkOpen = false → s.startup.phase = .swept own →
            exec .passedSeen s = .next (seen.finishTest own))
    ∧ (s.startup.unitNo = 0 → s.startup.unitState = .starting → s.startup.verdict = .waiting →
        s.startup.checkOpen = false → s.startup.presence = .present →
        let late : State := { s with
          startup := { s.startup with verdict := .failed }
          bench := { s.bench with flags := { s.bench.flags with pairFault := true } } }
        ((∀ own, s.startup.phase ≠ .swept own) → exec .pairWaitExpiry s = .next late)
        ∧ ∀ own, s.startup.phase = .swept own → exec .pairWaitExpiry s = .next (late.finishTest own))

/-- Self-Test, with nothing in assembly: the stream ends, an active run is aborted, the Run Queue, the sweep, the Capture FIFO
and the pending gains are discarded, the pointer returns to the window's start and a start-up test begins in a unit that is
Starting; where the last memory test found a fault, the map, the queues, the Exclusion and Permission Tables and the head profiles
take their power-on values, as R197 gives (R120, R122, R197, R199, R200, R202). The model's choices in it: a presence recorded
before stands until the check records another (log 20); an assertion that stands as the test begins is recorded at once (log 18); a
unit that changes its number sees and drives PRES released (log 32); and the pending gains, which R120 and R122 have Self-Test
discard and R202 does not list, are discarded as it is taken (log 26). Kept where the spec is silent: the auto-exclusions that wait
(log 13) and the publications to come (log 29). -/
def Obligations.SelfTestEffects : Prop :=
  ∀ (s : State) (strap : Bool), s.bench.assembly = .idle →
    (∀ left crc, s.bench.stream ≠ some { kind := .map left crc, words := [] }) →
    ∃ u : State,
      (s.runs.active = none → u = s)
      ∧ (∀ c, s.runs.active = some c → u = s.conclude c .aborted .selfTest (PerHead.all .none))
      ∧ ∃ (p : Option Pointer) (ps : PerHead Profile),
        let line := s.startup.unitNo == (if strap then 1 else 0) && s.startup.presLine
        let startup : Startup := { s.startup with
          strap := strap
          unitState := .starting
          unitNo := if strap then 1 else 0
          phase := .memoryTest
          powerOnTest := false
          presence := if strap then .secondary else if line then .present
                      else if s.startup.presence = .secondary then .unknown else s.startup.presence
          checkOpen := !strap && !line
          verdict := .waiting
          presLine := line
          passOut := false }
        let bench : BenchLink := { u.bench with stream := none, pointer := p, lastOutcome := .accepted }
        (∀ h : Head, ps.get h = { u.profile h with pendingGain := none })
        ∧ p = some { head := s.bench.window.firstHead, pos := 0
                     wedge := if s.bench.order.descending then s.bench.window.lastWedge else s.bench.window.firstWedge }
        ∧ (s.startup.memoryFault = false →
          exec (.selfTest strap) s = .next { u with
            profiles := ps, sweep := none, capture := { s.capture with fifo := [] }
            runs := { u.runs with queue := [] }, bench := bench, startup := startup })
        ∧ (s.startup.memoryFault = true →
          exec (.selfTest strap) s = .next { u with
            map := State.reset.map, profiles := State.reset.profiles, sweep := none
            capture := { s.capture with fifo := [] }, runs := { u.runs with queue := [], results := [] }
            exclusions := [], perms := State.reset.perms, bench := bench, startup := startup })

/-- Unit Reset, during a stream and a sweep too: the sums, the counts, the marks and the pending gains are emptied, with the
Capture Port's FIFO and counts, the held record, the runs and their results, the stream, the Return Queue and the flags; the
index timer stops and the pointer returns to the window's start. Corrections, offsets, settings and tables stay (R103,
R194). So do the auto-exclusions that wait (log 13, the model's choice) and the publications to come, which R74 does not withhold
(log 29). -/
def Obligations.UnitResetEffects : Prop :=
  ∀ s : State, s.MapLaw → s.bench.selected = s.startup.unitNo → s.bench.assembly = .idle →
    (∀ left crc, s.bench.stream ≠ some { kind := .map left crc, words := [] }) → s.startup.unitState ≠ .failed →
    ∃ (m : PerHead (Sparse Cell)) (ps : PerHead Profile),
      exec .unitReset s = .next { s with
        map := m
        profiles := ps
        capture := { frame := s.capture.frame, fifo := [], malformed := 0, unconfigured := 0, outOfRange := 0, overrun := 0 }
        index := { s.index with timer := none }
        held := none
        runs := { s.runs with queue := [], active := none, results := [] }
        bench := { s.bench with
          stream := none
          returnQueue := []
          flags := {}
          lastOutcome := .accepted
          pointer := some { head := s.bench.window.firstHead, pos := 0
                            wedge := if s.bench.order.descending then s.bench.window.lastWedge
                                     else s.bench.window.firstWedge } } }
      ∧ (∀ (h : Head) (w : Nat), cellAt m h w = { s.cell h w with sum := 0, count := 0 })
      ∧ ∀ h : Head, ps.get h =
          { s.profile h with publishPending := false, autoPublish := false, pendingGain := none }


/-! ### The Bench Link -/

/-- The commands of the link itself, and its reads. Null changes nothing; Select Unit selects in both units; Halt Stream ends
the stream and empties the Return Queue; the event commands clear and enable. A select-0 read drives the oldest word, which
leaves, and lets a stream place its next words; a select-1 read drives the Status word and clears the enabled flags; the unit
drives nothing while it is not selected or, as a secondary, is not Present, and drives 0 for an absent secondary (R173, R179,
R183, R185, R187, R188, R193). That a read strobe which this unit does not drive takes no word of its Return Queue and clears none
of its flags, in a selected secondary with Present released too, is read from R188 by inference (log 10, DEDUCED); `out`, what the
unit drove at the last strobe, is the model's own record (log 11). -/
def Obligations.LinkReadsAndFlags : Prop :=
  ∀ s : State,
    (∀ u : Word, s.bench.assembly = .idle →
      (∀ left crc, s.bench.stream ≠ some { kind := .map left crc, words := [] }) →
        (u.toNat ≤ 1 → exec (.selectUnit u) s = .next { s with bench := { s.bench with
          selected := if u = 0 then 0 else 1, lastOutcome := .accepted } })
        ∧ (2 ≤ u.toNat → exec (.selectUnit u) s = .next (s.refuse .badParameter)))
    ∧ (s.bench.selected = s.startup.unitNo → s.bench.assembly = .idle → s.startup.unitState ≠ .failed →
      (∀ left crc, s.bench.stream ≠ some { kind := .map left crc, words := [] }) →
        exec .null s = .next s
        ∧ exec .haltStream s = .next { s with bench := { s.bench with
            stream := none, returnQueue := [], lastOutcome := .accepted } })
    ∧ (s.LinkOpen → ∀ (kinds : Word), ∃ on fs fe : Kinds,
        exec (.clearEvents kinds) s = .next { s with bench := { s.bench with flags := fs, lastOutcome := .accepted } }
        ∧ exec (.setEventEnables kinds) s = .next { s with bench := { s.bench with
            enables := on, flags := fe, lastOutcome := .accepted } }
        ∧ [Kind.runEnded, .revolution, .captureOverrun, .returnLost, .commandRefused, .importMismatch, .exclusionFull,
            .spindleLost, .pairFault, .startupDone].map on.get = (List.range 10).map (fun i => kinds.getLsbD i)
        ∧ ∀ k : Kind, fs.get k = (s.bench.flags.get k && !on.get k)
          ∧ fe.get k = (s.bench.flags.get k && !(on.get k && !s.bench.enables.get k)))
    ∧ (s.bench.selected = s.startup.unitNo → s.startup.unitNo = 0 ∨ s.startup.presLine = true →
        (s.bench.returnQueue = [] → exec .returnQueueRead s = .next { s with bench := { s.bench with out := some 0 } })
        ∧ (∀ w q, s.bench.returnQueue = w :: q →
            exec .returnQueueRead s = .next (State.pump { s with bench := { s.bench with out := some w, returnQueue := q } }))
        ∧ ∃ fs : Kinds,
          exec .statusReadAcknowledge s = .next { s with bench := { s.bench with out := some s.statusWord, flags := fs } }
          ∧ ∀ k : Kind, fs.get k = (s.bench.flags.get k && !s.bench.enables.get k))
    ∧ (s.bench.selected ≠ s.startup.unitNo ∨ (s.startup.unitNo = 1 ∧ s.startup.presLine = false) →
        let out := if s.startup.unitNo = 0 ∧ s.bench.selected = 1 ∧ s.startup.presence = .absent ∧ s.startup.presLine = false
                   then some (0 : Word) else none
        exec .returnQueueRead s = .next { s with bench := { s.bench with out := out } }
        ∧ exec .statusReadAcknowledge s = .next { s with bench := { s.bench with out := out } })

/-- Streams. A stream places the words for which there is room and waits with the rest; a result stream that has placed its
last word removes the oldest result; a Stream Map that has reads left waits for its next one, and otherwise places its CRC, if
it is an export, and ends. Take Result and Stream Map start one; a granted stream read takes the item at the pointer (R19, R108,
R171, R172, R175). A Stream Map's first read takes effect within its own step, at its place in the queue, after the claims of the
Feed-Forward Server and the Learning Engine that wait (log 5). -/
def Obligations.StreamsPlaceTheirWords : Prop :=
  ∀ s : State,
    (∀ (k : StreamKind) (ws : List Word), s.bench.stream = some { kind := k, words := ws } →
      let room := 4 - s.bench.returnQueue.length
      let q := s.bench.returnQueue ++ ws.take room
      (room < ws.length → s.pump = { s with bench := { s.bench with
        returnQueue := q, stream := some { kind := k, words := ws.drop room } } })
      ∧ (ws.length ≤ room →
          (k = .copy → s.pump = { s with bench := { s.bench with returnQueue := q, stream := none } })
          ∧ (k = .result → s.pump = { s with
              bench := { s.bench with returnQueue := q, stream := none }
              runs := { s.runs with results := s.runs.results.tail } })
          ∧ ∀ left crc, k = .map left crc →
            (left ≠ some 0 → s.bench.pointer ≠ none →
              s.pump = { s with bench := { s.bench with returnQueue := q, stream := some { kind := k, words := [] } } })
            ∧ (left = some 0 ∨ s.bench.pointer = none →
                (crc = none → s.pump = { s with bench := { s.bench with returnQueue := q, stream := none } })
                ∧ ∀ r, crc = some r →
                  s.pump = { s with bench := { s.bench with
                    returnQueue := q ++ (crcWords r).take (4 - q.length)
                    stream := if 4 - q.length < 2 then some { kind := .copy, words := (crcWords r).drop (4 - q.length) }
                              else none } })))
    ∧ (s.bench.stream = none → s.pump = s)
    ∧ (s.LinkOpen →
        (s.runs.results = [] → exec .takeResult s = .next (s.refuse .noResult))
        ∧ ∀ r rest, s.runs.results = r :: rest →
          exec .takeResult s = .next (State.pump { s with bench := { s.bench with
            lastOutcome := .accepted, stream := some { kind := .result, words := r.words } } }))
    ∧ (s.MapOpen → ∀ n : Word,
        (s.bench.pointer = none → exec (.streamMap n) s = .next (s.refuse .notFound))
        ∧ ∀ p, s.bench.pointer = some p →
          let win := s.bench.window
          let whole : Bool := s.bench.order.packed && !s.bench.order.descending && win.firstHead == win.lastHead
            && win.firstWedge == 0 && win.lastWedge + 1 == s.settings.wedges
            && p == { head := win.firstHead, wedge := 0, pos := 0 } && (n == 0 || decide (s.settings.wedges ≤ n.toNat))
          ∃ u, execAll [.ffOperation, .learningOperation] s = .next u
          ∧ exec (.streamMap n) s = .next (State.pump { u with bench := { s.bench with
            lastOutcome := .accepted
            pointer := advancePointer win s.bench.order p
            stream := some <|
              { kind := .map (if n = 0 then none else some (n.toNat - 1))
                  (if whole then some ((u.itemAt p).foldl crcWord crcStart) else none)
                words := u.itemAt p } } }))
    ∧ ∀ left crc p, s.bench.stream = some { kind := .map left crc, words := [] } → s.bench.pointer = some p →
        (∀ q, s.ff.server ≠ .forming q) → s.held = none →
        exec .streamMapItemRead s = .next (State.pump { s with bench := { s.bench with
          pointer := advancePointer s.bench.window s.bench.order p
          stream := some
            { kind := .map (left.map fun n => n - 1) (crc.map fun r => (s.itemAt p).foldl crcWord r)
              words := s.itemAt p } } })

/-- The words of the readouts, of a result and of an item, as chapter 12 lays them out (R44, R55, R106, R107, R148, R155,
R163, R164, R189, R190). -/
def Obligations.ReadoutWords : Prop :=
  (∀ s : State, s.LinkOpen →
    exec .readExclusions s = .next (s.streaming
      (BitVec.ofNat 16 s.exclusions.length :: s.exclusions.map fun e => BitVec.ofNat 16 (e.1.val * 512 + e.2)))
    ∧ (∃ b l w : Word, exec .readPermissions s = .next (s.streaming [b, l, w])
        ∧ ∀ h : Head, b.getLsbD h.val = (s.perms.bench.get h).wc ∧ b.getLsbD (8 + h.val) = (s.perms.bench.get h).cs
          ∧ l.getLsbD h.val = (s.perms.learning.get h).wc ∧ l.getLsbD (8 + h.val) = (s.perms.learning.get h).cs
          ∧ w.getLsbD h.val = (s.perms.sweep.get h).wc ∧ w.getLsbD (8 + h.val) = (s.perms.sweep.get h).cs)
    ∧ (∀ h : Word, 8 ≤ h.toNat → exec (.readMonitor h) s = .next (s.refuse .badParameter))
    ∧ (∀ h : Word, h.toNat < 8 → exec (.readMonitor h) s = .next (s.streaming
        (match (s.profile (Fin.ofNat 8 h.toNat)).monitor with
         | none => [h, 0, 0, 0]
         | some m => [BitVec.ofNat 16 (h.toNat + 32768), BitVec.ofInt 16 m.pes, BitVec.ofNat 16 m.wedge, m.stamp])))
    ∧ exec .readCaptureCounts s = .next (s.streaming
        [BitVec.ofNat 16 s.capture.malformed, BitVec.ofNat 16 s.capture.unconfigured, BitVec.ofNat 16 s.capture.outOfRange,
          BitVec.ofNat 16 s.capture.overrun, BitVec.ofNat 16 s.capture.fifo.length, s.index.rev])
    ∧ exec .readIdentity s = .next (s.streaming
        [0x0816, 1, BitVec.ofNat 16 s.startup.unitNo.val, BitVec.ofNat 16 s.settings.headsInstalled,
          BitVec.ofNat 16 s.settings.wedges, BitVec.ofNat 16 s.startup.testCode,
          match s.startup.presence with | .unknown => 0 | .present => 1 | .absent => 2 | .secondary => 3])
    ∧ ∃ (e : Word) (heads : List Word),
      exec .readSettings s = .next (s.streaming
        ([BitVec.ofNat 16 s.settings.headsInstalled, BitVec.ofNat 16 s.settings.wedges, BitVec.ofNat 16 s.settings.depth,
          BitVec.ofNat 16 s.settings.learnGain, BitVec.ofNat 16 s.settings.threshold,
          BitVec.ofNat 16 s.settings.outlierLimit, BitVec.ofNat 16 s.settings.suspectCount,
          BitVec.ofNat 16 s.settings.cmax, BitVec.ofNat 16 s.settings.amin, BitVec.ofNat 16 s.settings.retryLimit,
          BitVec.ofNat 16 s.settings.indexTimeout, if s.settings.feedForward then 1 else 0, e] ++ heads))
      ∧ (List.range 16).map (fun i => e.getLsbD i)
          = [Kind.runEnded, .revolution, .captureOverrun, .returnLost, .commandRefused, .importMismatch, .exclusionFull,
              .spindleLost, .pairFault, .startupDone].map s.bench.enables.get ++ List.replicate 6 false
      ∧ heads.length = 32
      ∧ ∀ h : Head, ∃ x : Word,
        (heads.drop (4 * h.val)).take 4 =
          [BitVec.ofNat 16 (s.profile h).gain, BitVec.ofNat 16 ((s.profile h).pendingGain.getD 0),
            BitVec.ofInt 16 (s.profile h).offset, x]
        ∧ ((s.profile h).lead ≤ 7 → x.toNat % 8 = (s.profile h).lead
          ∧ (List.range 13).map (fun i => x.getLsbD (3 + i))
              = [(s.profile h).inverted, (s.profile h).offsetSplit, (s.profile h).importFault,
                  (s.profile h).publishPending, (s.profile h).autoPublish] ++ List.replicate 8 false))
  ∧ (∀ r : RunResult,
      r.words =
        [BitVec.ofNat 16 (r.tag + 256 * (match r.kind with | .learn => 0 | .verify => 1 | .gain => 2)),
          BitVec.ofNat 16 ((match r.outcome with | .complete => 0 | .exhausted => 1 | .aborted => 2 | .faulted => 3)
            + 4 * (match r.cause with
                | .none => 0 | .haltRun => 1 | .feedForwardOff => 2 | .selfTest => 3 | .spindleLost => 4 | .noHeads => 5)),
          BitVec.ofNat 16 r.collectRevs, BitVec.ofNat 16 (r.retries + 256 * r.entries.length)]
        ++ ([r.totals.idInvalid, r.totals.saturated, r.totals.weak, r.totals.inconsistent, r.totals.offTrack,
              r.totals.early, r.totals.stale, r.totals.duplicate, r.totals.outlier, r.totals.suspect, r.totals.excluded,
              r.totals.overrun].map (BitVec.ofNat 16))
        ++ r.entries.flatMap fun e =>
            [BitVec.ofNat 16 (e.head.val + if e.skipped then 32768 else 0), BitVec.ofNat 16 e.excluded,
              BitVec.ofNat 16 e.suspect, BitVec.ofNat 16 e.unmeasured, BitVec.ofNat 16 e.converged,
              BitVec.ofNat 16 e.learning, BitVec.ofNat 16 e.peak, BitVec.ofInt 16 e.offset,
              match e.gain with
              | .none => 0 | .gain g => BitVec.ofNat 16 g | .insufficient => 1 | .nonPositiveStep => 2 | .gainRange => 3])
  ∧ ∀ (s : State) (p : Pointer),
      (s.configured p.head p.wedge = false →
        s.itemAt p = List.replicate (if s.bench.order.packed then 1 else 3) 0)
      ∧ (s.configured p.head p.wedge = true →
          let c := s.cell p.head p.wedge
          (s.bench.order.packed = true → s.itemAt p = [BitVec.ofInt 16 c.working])
          ∧ (s.bench.order.packed = false → s.itemAt p =
              [BitVec.ofInt 16 c.working, BitVec.ofInt 16 c.published,
                BitVec.ofNat 16 ((match c.state with
                  | .empty => 0 | .loaded => 1 | .learning => 2 | .converged => 3 | .suspect => 4 | .excluded => 5)
                  + 8 * c.outliers + (if c.dirty then 128 else 0) + 256 * c.count)]))

/-- Single words of the link. A write with select 2 or 3 has no effect. A parameter word completes first the Stream Map read
claimed before it; it is then ignored while the assembly is Idle, held while it is not the last, has the command judged as the
last, and is data while a Write Map takes data; so it is in the selected unit, and for a Select Unit that another unit
assembles. With nothing in assembly and no read waiting, a command word with parameters opens its assembly, and one that names
no command is refused BadParameter (R178, R180, R187; log 5), but NotReady in a Failed unit and Streaming during a stream, which
go before it (R181, R203; log 31, DEDUCED). That a word arrives in its own step, so that it completes whatever read is claimed
by then, is the model's choice (log 5). -/
def Obligations.SingleWords : Prop :=
  ∀ s : State,
    (∀ w : Word, exec (.benchParameterWord 2 w) s = .next s ∧ exec (.benchParameterWord 3 w) s = .next s
      ∧ exec (.benchParameterWord 1 w) s = exec (.mapDataWord w) s
      ∧ exec (.benchParameterWord 0 w) s = exec (.unknownCommand w) s)
    ∧ ((s.bench.selected = s.startup.unitNo ∨ ∃ ws, s.bench.assembly = .assembling .selectUnit ws) →
        ∃ v, s.ReadTaken v ∧ v.bench.assembly = s.bench.assembly ∧ ∀ w : Word,
          (s.bench.assembly = .idle → exec (.benchParameterWord 1 w) s = .next v)
          ∧ (∀ imp, s.bench.assembly = .takingData imp →
              exec (.benchParameterWord 1 w) s = .next (v.dataWord imp w)
              ∧ (¬ v.ReadWaits → exec (.benchParameterWord 1 w) s = exec (.benchParameterWord 1 w) v))
          ∧ ∀ (code : CmdCode) (ps : List Word), s.bench.assembly = .assembling code ps →
              (ps.length + 1 < code.paramCount → exec (.benchParameterWord 1 w) s =
                .next { v with bench := { v.bench with assembly := .assembling code (ps ++ [w]) } })
              ∧ (code.paramCount ≤ ps.length + 1 → exec (.benchParameterWord 1 w) s =
                .next (State.perform { v with bench := { v.bench with assembly := .idle } } code (ps ++ [w])))
              ∧ ∀ i : Instr, i.linkWords = some (code, ps ++ [w]) → ¬ v.ReadWaits →
                exec (.benchParameterWord 1 w) s = exec i { v with bench := { v.bench with assembly := .idle } })
    ∧ (s.bench.assembly = .idle → ¬ s.ReadWaits → ∀ w : Word,
        (CmdCode.ofWord w = none → s.bench.selected = s.startup.unitNo →
          exec (.unknownCommand w) s = .next (s.refuse
            (if s.startup.unitState = .failed then .notReady else if s.bench.stream.isSome then .streaming else .badParameter)))
        ∧ ∀ code, CmdCode.ofWord w = some code → 1 ≤ code.paramCount →
          s.bench.selected = s.startup.unitNo ∨ code = .selectUnit →
          exec (.benchParameterWord 0 w) s = .next { s with bench := { s.bench with assembly := .assembling code [] } })

/-! ### Map access, settings and tables -/

/-- Data words. In Packed view a word writes the working correction, clamped, where the Bench writer holds WC, and turns an
Empty cell Loaded where it holds CS; in Record view the first word writes the correction, the second nothing, and the third
the state and the outlier count by CS, which an Excluded cell's state does not take. The pointer moves on, and past the end of
the window a word is ignored. A whole-head import counts its words into the CRC, and is judged at the second word of the CRC it
carries (R19, R165, R166, R169, R176). The write takes effect within its own step, at its place in the queue, after the claims of
the Feed-Forward Server and the Learning Engine that wait (log 5). -/
def Obligations.DataWords : Prop :=
  ∀ (s : State) (w : Word), s.MapLaw → s.bench.selected = s.startup.unitNo → s.bench.stream = none →
    (∀ p, s.bench.assembly = .takingData none → s.bench.pointer = some p →
      let after : Option Pointer :=
        if s.bench.order.packed = true ∨ p.pos = 2 then advancePointer s.bench.window s.bench.order p
        else some { p with pos := p.pos + 1 }
      ∃ (u : State) (m : PerHead (Sparse Cell)),
        execAll [.ffOperation, .learningOperation] s = .next u
        ∧ exec (.mapDataWord w) s = .next { u with map := m, bench := { s.bench with pointer := after } }
        ∧ (∀ (h : Head) (x : Nat), h ≠ p.head ∨ x ≠ p.wedge → cellAt m h x = u.cell h x)
        ∧ let o := u.cell p.head p.wedge
          let perm := s.perms.bench.get p.head
          let v := max (-(s.settings.cmax : Int)) (min s.settings.cmax w.toInt)
          let written := if perm.wc = true ∧ v ≠ o.working then { o with working := v, dirty := true, sum := 0, count := 0 }
                         else o
          (s.bench.order.packed = true → cellAt m p.head p.wedge =
            if perm.cs = true ∧ o.state = .empty then { written with state := .loaded } else written)
          ∧ (s.bench.order.packed = false → p.pos = 0 → cellAt m p.head p.wedge = written)
          ∧ (s.bench.order.packed = false → p.pos = 1 → cellAt m p.head p.wedge = o)
          ∧ (s.bench.order.packed = false → p.pos = 2 →
              (perm.cs = false ∨ 5 ≤ w.toNat % 8 → cellAt m p.head p.wedge = o)
              ∧ ∀ st, perm.cs = true →
                [CellState.empty, .loaded, .learning, .converged, .suspect][w.toNat % 8]? = some st →
                cellAt m p.head p.wedge = { o with
                  state := if o.state = .excluded then .excluded else st
                  outliers := if st = .suspect then o.outliers else 0 }))
    ∧ (s.bench.assembly = .takingData none → s.bench.pointer = none → exec (.mapDataWord w) s = .next s)
    ∧ (∀ h left crc, s.bench.assembly = .takingData (some { head := h, stage := .data left crc }) →
        ∃ u, exec (.mapDataWord w) { s with bench := { s.bench with assembly := .takingData none } } = .next u
          ∧ exec (.mapDataWord w) s = .next { u with bench := { u.bench with assembly := .takingData (some
              { head := h, stage := if left ≤ 1 then .crcLow (crcWord crc w) else .data (left - 1) (crcWord crc w) }) } })
    ∧ (∀ h crc, s.bench.assembly = .takingData (some { head := h, stage := .crcLow crc }) →
        exec (.mapDataWord w) s = .next { s with bench := { s.bench with
          assembly := .takingData (some { head := h, stage := .crcHigh crc w }) } })
    ∧ (∀ h crc low, s.bench.assembly = .takingData (some { head := h, stage := .crcHigh crc low }) →
        let b : BenchLink := { s.bench with assembly := .takingData (some { head := h, stage := .judged }) }
        (crcWords crc = [low, w] → exec (.mapDataWord w) s = .next { s with
          bench := b, profiles := s.profiles.set h { s.profile h with importFault := false } })
        ∧ (crcWords crc ≠ [low, w] → exec (.mapDataWord w) s = .next { s with
            bench := { b with flags := { s.bench.flags with importMismatch := true } }
            profiles := s.profiles.set h { s.profile h with importFault := true } }))
    ∧ ∀ h, s.bench.assembly = .takingData (some { head := h, stage := .judged }) → exec (.mapDataWord w) s = .next s

/-- The walk of the window: wedge by wedge within a head, or head by head within a wedge, in the wedge direction, to past the
end; and the commands of windowed map access, in a unit that is Ready with no sweep (R19, R159 to R161, R167, R168, R170, R176).
The read of Read Map Item takes effect within its own step, at its place in the queue, after the claims of the Feed-Forward
Server and the Learning Engine that wait (log 5). -/
def Obligations.MapAccessCommands : Prop :=
  (∀ (win : Window) (ord : Order) (p : Pointer), p.within win →
    let start := if ord.descending then win.lastWedge else win.firstWedge
    let last := if ord.descending then win.firstWedge else win.lastWedge
    let next := if ord.descending then p.wedge - 1 else p.wedge + 1
    advancePointer win ord p =
      if ord.headMajor then
        (if p.head ≠ win.lastHead then some { head := p.head + 1, wedge := p.wedge, pos := 0 }
         else if p.wedge ≠ last then some { head := win.firstHead, wedge := next, pos := 0 } else none)
      else
        (if p.wedge ≠ last then some { head := p.head, wedge := next, pos := 0 }
         else if p.head ≠ win.lastHead then some { head := p.head + 1, wedge := start, pos := 0 } else none))
  ∧ (∀ s : State, s.LinkOpen → s.settings.geometryLegal → ∀ a b c d : Word,
      let fh := min a.toNat (s.settings.headsInstalled - 1)
      let lh := min b.toNat (s.settings.headsInstalled - 1)
      let fw := min c.toNat (s.settings.wedges - 1)
      let lw := min d.toNat (s.settings.wedges - 1)
      exec (.setWindow a b c d) s = .next
        (if lh < fh ∨ lw < fw then s.refuse .badParameter
         else { s with bench := { s.bench with
          window := { firstHead := Fin.ofNat 8 fh, lastHead := Fin.ofNat 8 lh, firstWedge := fw, lastWedge := lw }
          pointer := some { head := Fin.ofNat 8 fh, wedge := if s.bench.order.descending then lw else fw, pos := 0 }
          lastOutcome := .accepted } }))
  ∧ (∀ s : State, s.LinkOpen → ∀ a b c : Word, exec (.setAccessOrder a b c) s = .next
      (if 2 ≤ a.toNat ∨ 2 ≤ b.toNat ∨ 2 ≤ c.toNat then s.refuse .badParameter
       else { s with bench := { s.bench with
        order := { headMajor := a == 1, descending := b == 1, packed := c == 1 }
        pointer := some { head := s.bench.window.firstHead, pos := 0
                          wedge := if b = 1 then s.bench.window.lastWedge else s.bench.window.firstWedge }
        lastOutcome := .accepted } }))
  ∧ ∀ s : State, s.MapOpen →
      (let win := s.bench.window
       let whole : Bool := s.bench.order.packed && !s.bench.order.descending && win.firstHead == win.lastHead
         && win.firstWedge == 0 && win.lastWedge + 1 == s.settings.wedges
       exec .writeMap s = .next { s with bench := { s.bench with
         assembly := .takingData (if whole then some { head := win.firstHead, stage := .data s.settings.wedges crcStart } else none)
         pointer := some { head := win.firstHead, pos := 0
                           wedge := if s.bench.order.descending then win.lastWedge else win.firstWedge }
         lastOutcome := .accepted } })
      ∧ exec .writeMapContinue s = .next { s with bench := { s.bench with
          assembly := .takingData none, lastOutcome := .accepted } }
      ∧ (s.bench.pointer = none → exec .readMapItem s = .next (s.refuse .notFound))
      ∧ ∀ p, s.bench.pointer = some p →
        let room := 4 - s.bench.returnQueue.length
        ∃ u, execAll [.ffOperation, .learningOperation] s = .next u
        ∧ exec .readMapItem s = .next { u with bench := { s.bench with
          returnQueue := s.bench.returnQueue ++ (u.itemAt p).take room
          pointer := advancePointer s.bench.window s.bench.order p
          flags := if room < (u.itemAt p).length then { s.bench.flags with returnLost := true } else s.bench.flags
          lastOutcome := .accepted } }

/-- Set Geometry and Fill, in the order of their judgement. An accepted Set Geometry empties the Exclusion Table with its
Excluded cells, the offsets, import faults, marks and pending gains and the Capture FIFO, sets the window to every configured
cell, and starts the geometry sweep of the whole grid; an accepted Fill starts the sweep of the access window with its value
clamped (R18, R25, R27; log 24). That the value is clamped here, with Cmax as the command is taken (R27), and not again at each
write (R7, R191) is the model's choice (log 33). Set Geometry keeps the auto-exclusions that wait (log 13, the model's choice)
and the publications to come, which R74 does not withhold (log 29). -/
def Obligations.GeometryAndFill : Prop :=
  ∀ s : State, s.LinkOpen → s.startup.unitState = .ready →
    (∀ heads wedges : Word,
      let bad : Prop := heads.toNat < 1 ∨ 8 < heads.toNat ∨ wedges.toNat < 32 ∨ 512 < wedges.toNat
      (bad → exec (.setGeometry heads wedges) s = .next (s.refuse .badParameter))
      ∧ (¬ bad → s.runs.active.isSome = true ∨ s.runs.queue ≠ [] ∨ s.sweep.isSome = true →
          exec (.setGeometry heads wedges) s = .next (s.refuse .busy))
      ∧ (¬ bad → s.MapLaw → s.runs.active = none → s.runs.queue = [] → s.sweep = none →
          ∃ (m : PerHead (Sparse Cell)) (ps : PerHead Profile),
            exec (.setGeometry heads wedges) s = .next { s with
              map := m
              profiles := ps
              exclusions := []
              settings := { s.settings with headsInstalled := heads.toNat, wedges := wedges.toNat }
              capture := { s.capture with fifo := [] }
              sweep := some { kind := .geometry, firstHead := 0, lastHead := 7, firstWedge := 0, lastWedge := 511,
                              nextHead := 0, nextWedge := 0 }
              bench := { s.bench with
                window := { firstHead := 0, lastHead := Fin.ofNat 8 (heads.toNat - 1)
                            firstWedge := 0, lastWedge := wedges.toNat - 1 }
                pointer := some { head := 0, pos := 0, wedge := if s.bench.order.descending then wedges.toNat - 1 else 0 }
                lastOutcome := .accepted } }
            ∧ (∀ (h : Head) (w : Nat), cellAt m h w =
                { s.cell h w with state := if (s.cell h w).state = .excluded then .empty else (s.cell h w).state })
            ∧ ∀ h : Head, ps.get h = { s.profile h with
                offset := 0, importFault := false, publishPending := false, autoPublish := false, pendingGain := none }))
    ∧ ∀ value state : Word,
      let win := s.bench.window
      let meets : Prop := ∃ c h, s.runs.active = some c ∧ c.heads.get h = true ∧ win.firstHead.val ≤ h.val
        ∧ h.val ≤ win.lastHead.val
      (2 ≤ state.toNat → exec (.fill value state) s = .next (s.refuse .badParameter))
      ∧ (state.toNat ≤ 1 → s.sweep.isSome = true ∨ meets → exec (.fill value state) s = .next (s.refuse .busy))
      ∧ (state.toNat ≤ 1 → s.sweep = none → ¬ meets →
          exec (.fill value state) s = .next { s with
            sweep := some
              { kind := .fill (max (-(s.settings.cmax : Int)) (min s.settings.cmax value.toInt)) (state == 1)
                firstHead := win.firstHead, lastHead := win.lastHead
                firstWedge := win.firstWedge, lastWedge := win.lastWedge
                nextHead := win.firstHead, nextWedge := win.firstWedge }
            bench := { s.bench with lastOutcome := .accepted } })

/-- The settings commands: each brings its value into its range, a head parameter outside 0..7 and a choice outside 0..1 are
refused BadParameter, Publish Now marks the configured heads it names and is refused where it names none, and Feed-Forward On
turns feed-forward on (R80, R139, R191, R192). -/
def Obligations.SettingsCommands : Prop :=
  ∀ s : State, s.LinkOpen →
    (∀ sel value : Word,
      let v := value.toNat
      exec (.setSetting sel value) s = .next
        (if 9 ≤ sel.toNat then s.refuse .badParameter
         else { s with
          settings :=
            (if sel = 0 then { s.settings with depth :=
              if v < 4 then 2 else if v < 8 then 4 else if v < 16 then 8 else if v < 32 then 16 else if v < 64 then 32 else 64 }
             else if sel = 1 then { s.settings with learnGain := max 1 (min 8 v) }
             else if sel = 2 then { s.settings with threshold := min 255 v }
             else if sel = 3 then { s.settings with outlierLimit := max 16 (min 1023 v) }
             else if sel = 4 then { s.settings with suspectCount := max 1 (min 15 v) }
             else if sel = 5 then { s.settings with cmax := max 64 (min 2047 v) }
             else if sel = 6 then { s.settings with amin := max 16 (min 4095 v) }
             else if sel = 7 then { s.settings with retryLimit := min 3 v }
             else { s.settings with indexTimeout := max 20 (min 2000 v) })
          bench := { s.bench with lastOutcome := .accepted } }))
    ∧ (∀ head gain : Word, exec (.setHeadGain head gain) s = .next
        (if 8 ≤ head.toNat then s.refuse .badParameter
         else { s with
          profiles := s.profiles.set (Fin.ofNat 8 head.toNat)
            { s.profile (Fin.ofNat 8 head.toNat) with gain := max 8192 (min 32767 gain.toNat) }
          bench := { s.bench with lastOutcome := .accepted } }))
    ∧ (∀ head lead polarity split : Word, exec (.setHeadOptions head lead polarity split) s = .next
        (if 8 ≤ head.toNat ∨ 2 ≤ polarity.toNat ∨ 2 ≤ split.toNat then s.refuse .badParameter
         else { s with
          profiles := s.profiles.set (Fin.ofNat 8 head.toNat)
            { s.profile (Fin.ofNat 8 head.toNat) with
              lead := min 7 lead.toNat, inverted := polarity == 1, offsetSplit := split == 1 }
          bench := { s.bench with lastOutcome := .accepted } }))
    ∧ (∀ heads : Word,
        let named := fun h : Head => heads.getLsbD h.val = true ∧ h.val < s.settings.headsInstalled
        ((∀ h, ¬ named h) → exec (.publishNow heads) s = .next (s.refuse .badParameter))
        ∧ ((∃ h, named h) → ∃ ps : PerHead Profile,
            exec (.publishNow heads) s = .next { s with
              profiles := ps, bench := { s.bench with lastOutcome := .accepted } }
            ∧ ∀ h : Head, (named h → ps.get h = { s.profile h with publishPending := true })
              ∧ (¬ named h → ps.get h = s.profile h)))
    ∧ exec .feedForwardOn s = .next { s with
        settings := { s.settings with feedForward := true }, bench := { s.bench with lastOutcome := .accepted } }

/-- Entries of the Exclusion Table and permissions. Exclude enters a configured cell, which is Excluded, unless the table is
full; Include and Clear Exclusions remove entries and restore their cells to Loaded or Empty by the working correction. Set
Permissions replaces the marks of one writer for the heads it names. An auto-exclusion takes one of the waiting requests: it
enters the cell as Exclude does, unanswered, changes nothing else where the table holds the entry, and sets ExclusionFull where
the table is full (R144 to R147, R149, R154). The model's choices in it (log 13): which of several waiting requests is taken,
which R149 leaves open, is said by the model's own field `autoOrder`, the oldest where it is empty; and a request whose cell is
no longer configured is dropped, where R149's last case reads that the entry is inserted. -/
def Obligations.ExclusionsAndPermissions : Prop :=
  ∀ s : State, s.MapLaw →
    let i := (match s.autoOrder with | [] => 0 | k :: _ => k) % s.autoRequests.length
    (∀ (h : Head) (w : Nat), (h, w) ∉ s.exclusions → s.configured h w = true → s.exclusions.length < 32 →
      ∃ (m : PerHead (Sparse Cell)) (es : List (Head × Nat)),
        (s.autoRequests[i]? = some (h, w) →
          exec .autoExclusion s = .next { s with
            autoRequests := s.autoRequests.eraseIdx i, autoOrder := s.autoOrder.tail, map := m, exclusions := es })
        ∧ (∀ head wedge : Word, head.toNat = h.val → wedge.toNat = w → s.LinkOpen →
          exec (.excludeWedge head wedge) s = .next { s with
            map := m, exclusions := es, bench := { s.bench with lastOutcome := .accepted } })
        ∧ (∀ e, e ∈ es ↔ e = (h, w) ∨ e ∈ s.exclusions) ∧ es.length = s.exclusions.length + 1
        ∧ ∀ (k : Head) (v : Nat), cellAt m k v =
            if k = h ∧ v = w then { s.cell h w with state := .excluded } else s.cell k v)
    ∧ (∀ (h : Head) (w : Nat), s.autoRequests[i]? = some (h, w) →
        ((h, w) ∈ s.exclusions ∨ s.configured h w = false →
          exec .autoExclusion s = .next { s with
            autoRequests := s.autoRequests.eraseIdx i, autoOrder := s.autoOrder.tail })
        ∧ ((h, w) ∉ s.exclusions → s.configured h w = true → 32 ≤ s.exclusions.length →
          exec .autoExclusion s = .next { s with
            autoRequests := s.autoRequests.eraseIdx i, autoOrder := s.autoOrder.tail
            bench := { s.bench with flags := { s.bench.flags with exclusionFull := true } } }))
    ∧ (s.LinkOpen →
      (∀ head wedge : Word,
        (s.settings.headsInstalled ≤ head.toNat ∨ s.settings.wedges ≤ wedge.toNat →
          exec (.excludeWedge head wedge) s = .next (s.refuse .badParameter))
        ∧ (head.toNat < s.settings.headsInstalled → wedge.toNat < s.settings.wedges →
            ((Fin.ofNat 8 head.toNat, wedge.toNat) ∈ s.exclusions →
              exec (.excludeWedge head wedge) s = .next { s with bench := { s.bench with lastOutcome := .accepted } })
            ∧ ((Fin.ofNat 8 head.toNat, wedge.toNat) ∉ s.exclusions → 32 ≤ s.exclusions.length →
              exec (.excludeWedge head wedge) s = .next { s with bench := { s.bench with
                lastOutcome := .tableFull
                flags := { s.bench.flags with commandRefused := true, exclusionFull := true } } }))
        ∧ (8 ≤ head.toNat ∨ (Fin.ofNat 8 head.toNat, wedge.toNat) ∉ s.exclusions →
            exec (.includeWedge head wedge) s = .next (s.refuse .notFound))
        ∧ (head.toNat < 8 → (Fin.ofNat 8 head.toNat, wedge.toNat) ∈ s.exclusions →
            ∃ m : PerHead (Sparse Cell),
              exec (.includeWedge head wedge) s = .next { s with
                map := m
                exclusions := s.exclusions.filter fun e => e != (Fin.ofNat 8 head.toNat, wedge.toNat)
                bench := { s.bench with lastOutcome := .accepted } }
              ∧ ∀ (k : Head) (v : Nat), cellAt m k v =
                if k.val = head.toNat ∧ v = wedge.toNat then
                  { s.cell k v with state := if (s.cell k v).working = 0 then .empty else .loaded }
                else s.cell k v))
      ∧ (∀ heads : Word, ∃ m : PerHead (Sparse Cell),
          exec (.clearExclusions heads) s = .next { s with
            map := m
            exclusions := s.exclusions.filter fun e => !heads.getLsbD e.1.val
            bench := { s.bench with lastOutcome := .accepted } }
          ∧ ∀ (k : Head) (v : Nat), cellAt m k v =
            if heads.getLsbD k.val = true ∧ (k, v) ∈ s.exclusions then
              { s.cell k v with state := if (s.cell k v).working = 0 then .empty else .loaded }
            else s.cell k v)
      ∧ ∀ writer heads fields : Word,
        (3 ≤ writer.toNat → exec (.setPermissions writer heads fields) s = .next (s.refuse .badParameter))
        ∧ (writer.toNat ≤ 2 → ∃ b l w : PerHead Permission,
            exec (.setPermissions writer heads fields) s = .next { s with
              perms := { bench := b, learning := l, sweep := w }, bench := { s.bench with lastOutcome := .accepted } }
            ∧ ∀ h : Head,
              let new : Permission := { wc := fields.getLsbD 0, cs := fields.getLsbD 1 }
              b.get h = (if writer = 0 ∧ heads.getLsbD h.val = true then new else s.perms.bench.get h)
              ∧ l.get h = (if writer = 1 ∧ heads.getLsbD h.val = true then new else s.perms.learning.get h)
              ∧ w.get h = (if writer = 2 ∧ heads.getLsbD h.val = true then new else s.perms.sweep.get h)))

end
end

