-- ==== Sys2Proof/Laws/Arith.lean ====
section
/-! SUPPORT. Lemmas about the arithmetic of chapter 2. -/

namespace Sys2Proof.Machine

/-- A quotient of at most `n` in magnitude rounds to at most `n` in magnitude. -/
theorem rounded_natAbs_le (x : Int) (d n : Nat) (hd : 0 < d) (h : x.natAbs ≤ n * d) : (rounded x d).natAbs ≤ n := by
  have h1 := Nat.div_add_mod x.natAbs d
  have h2 := Nat.mod_lt x.natAbs hd
  have : (rounded x d).natAbs = (if d ≤ 2 * (x.natAbs % d) then x.natAbs / d + 1 else x.natAbs / d) := by
    unfold rounded; dsimp only
    generalize x.natAbs / d = u
    split <;> split <;> omega
  rw [this]
  split
  · by_contra hc
    have : n ≤ x.natAbs / d := by omega
    have := Nat.mul_le_mul_left d this
    rw [Nat.mul_comm n d] at h
    have : x.natAbs % d = 0 := by omega
    omega
  · exact Nat.div_le_of_le_mul (by rw [Nat.mul_comm]; exact h)

/-- The ratio of two amplitudes is at most 512 in magnitude (R31). -/
theorem pairRatio_natAbs_le (c d : Nat) (h : 0 < c + d) : (rounded (512 * ((c : Int) - d)) (c + d)).natAbs ≤ 512 := by
  apply rounded_natAbs_le _ _ _ h; omega

end Sys2Proof.Machine
end

