-- ==== Sys2Proof/Laws/Containers.lean ====
section
/-! SUPPORT. The laws of the per-head tables and of the sparse tables: read after write, and that every operation keeps the
canonical form. -/

namespace Sys2Proof.Machine

/-! ### Per-head tables -/

@[simp] theorem PerHead.get_ofFn {α : Type} (f : Head → α) (h : Head) : (PerHead.ofFn f).get h = f h := by
  fin_cases h <;> rfl

@[simp] theorem PerHead.get_all {α : Type} (a : α) (h : Head) : (PerHead.all a).get h = a := by
  fin_cases h <;> rfl

theorem PerHead.get_set {α : Type} (t : PerHead α) (h k : Head) (a : α) :
    (t.set h a).get k = if k = h then a else t.get k := by
  fin_cases h <;> fin_cases k <;> rfl

@[simp] theorem PerHead.get_set_same {α : Type} (t : PerHead α) (h : Head) (a : α) : (t.set h a).get h = a := by
  simp [PerHead.get_set]

@[simp] theorem PerHead.get_set_other {α : Type} (t : PerHead α) {h k : Head} (a : α) (hk : k ≠ h) :
    (t.set h a).get k = t.get k := by
  simp [PerHead.get_set, hk]

theorem PerHead.get_modify {α : Type} (t : PerHead α) (h k : Head) (f : α → α) :
    (t.modify h f).get k = if k = h then f (t.get h) else t.get k := by
  simp [PerHead.modify, PerHead.get_set]

/-- Two per-head tables are equal when every head's value is. -/
theorem PerHead.ext_get {α : Type} {a b : PerHead α} (hab : ∀ h, a.get h = b.get h) : a = b := by
  obtain ⟨a0, a1, a2, a3, a4, a5, a6, a7⟩ := a
  obtain ⟨b0, b1, b2, b3, b4, b5, b6, b7⟩ := b
  have e0 : a0 = b0 := hab 0
  have e1 : a1 = b1 := hab 1
  have e2 : a2 = b2 := hab 2
  have e3 : a3 = b3 := hab 3
  have e4 : a4 = b4 := hab 4
  have e5 : a5 = b5 := hab 5
  have e6 : a6 = b6 := hab 6
  have e7 : a7 = b7 := hab 7
  subst e0 e1 e2 e3 e4 e5 e6 e7
  rfl

@[simp] theorem PerHead.ofFn_get {α : Type} (t : PerHead α) : (PerHead.ofFn fun h => t.get h) = t :=
  PerHead.ext_get fun h => by simp

theorem mem_allHeads (h : Head) : h ∈ allHeads := by
  fin_cases h <;> decide

theorem HeadSet.mem_toList (hs : HeadSet) (h : Head) : h ∈ hs.toList ↔ hs.get h = true := by
  simp [HeadSet.toList, mem_allHeads]

/-! ### Sparse tables -/

@[simp] theorem Sparse.get_nil {α : Type} (d : α) (k : Nat) : Sparse.get d ([] : Sparse α) k = d := rfl

/-- An entry below every listed number does not show. -/
theorem Sparse.get_of_lt {α : Type} (d : α) (t : Sparse α) (k : Nat) (h : ∀ p ∈ t, k < p.1) : Sparse.get d t k = d := by
  induction t with
  | nil => rfl
  | cons x xs ih =>
    have hx : k < x.1 := h x (by simp)
    obtain ⟨k', v⟩ := x
    rw [Sparse.get, if_neg (by simp only at hx; omega)]
    exact ih fun p hp => h p (by simp [hp])

/-- The numbers of a table strictly rise. -/
def Sparse.rising {α : Type} (t : Sparse α) : Prop := t.Pairwise fun a b => a.1 < b.1

/-- A read after a write. -/
theorem Sparse.get_set {α : Type} [DecidableEq α] (d : α) (t : Sparse α) (hr : Sparse.rising t) (k : Nat) (v : α)
    (k' : Nat) : Sparse.get d (Sparse.set d t k v) k' = if k' = k then v else Sparse.get d t k' := by
  induction t with
  | nil =>
    by_cases hv : v = d
    · simp [Sparse.set, hv]
    · simp [Sparse.set, hv, Sparse.get, eq_comm]
  | cons x xs ih =>
    obtain ⟨kx, vx⟩ := x
    have hr' := List.pairwise_cons.mp hr
    have ih' := ih hr'.2
    simp only [Sparse.set]
    by_cases h1 : k < kx
    · rw [if_pos h1]
      have hk : Sparse.get d ((kx, vx) :: xs) k = d := by
        apply Sparse.get_of_lt
        intro p hp
        rcases List.mem_cons.mp hp with rfl | hp
        · exact h1
        · exact lt_trans h1 (hr'.1 p hp)
      by_cases hv : v = d
      · rw [if_pos hv]
        by_cases hk' : k' = k
        · rw [if_pos hk', hk', hk, hv]
        · rw [if_neg hk']
      · rw [if_neg hv]
        by_cases hk' : k' = k
        · simp [Sparse.get, hk']
        · rw [Sparse.get, if_neg (Ne.symm hk'), if_neg hk']
    · rw [if_neg h1]
      by_cases h2 : k = kx
      · subst h2
        rw [if_pos rfl]
        have hk : Sparse.get d xs k = d := Sparse.get_of_lt d xs k fun p hp => hr'.1 p hp
        by_cases hv : v = d
        · rw [if_pos hv]
          by_cases hk' : k' = k
          · rw [if_pos hk', hk', hk, hv]
          · rw [if_neg hk', Sparse.get, if_neg (Ne.symm hk')]
        · rw [if_neg hv]
          by_cases hk' : k' = k
          · simp [Sparse.get, hk']
          · simp [Sparse.get, hk', Ne.symm hk']
      · rw [if_neg h2, Sparse.get, Sparse.get]
        by_cases hk' : kx = k'
        · subst hk'
          rw [if_pos rfl, if_pos rfl, if_neg (Ne.symm h2)]
        · rw [if_neg hk', if_neg hk', ih']

/-- Every number a write lists is the written one or one listed before. -/
theorem Sparse.mem_set {α : Type} [DecidableEq α] (d : α) (t : Sparse α) (k : Nat) (v : α) (p : Nat × α)
    (hp : p ∈ Sparse.set d t k v) : (p = (k, v) ∧ v ≠ d) ∨ p ∈ t := by
  induction t with
  | nil =>
    by_cases hv : v = d
    · simp [Sparse.set, hv] at hp
    · simp only [Sparse.set, if_neg hv, List.mem_singleton] at hp
      exact .inl ⟨hp, hv⟩
  | cons x xs ih =>
    obtain ⟨kx, vx⟩ := x
    simp only [Sparse.set] at hp
    split at hp
    · split at hp
      · exact .inr hp
      · rename_i hv
        rcases List.mem_cons.mp hp with rfl | hp
        · exact .inl ⟨rfl, hv⟩
        · exact .inr hp
    · split at hp
      · split at hp
        · exact .inr (List.mem_cons_of_mem _ hp)
        · rename_i hv
          rcases List.mem_cons.mp hp with rfl | hp
          · exact .inl ⟨rfl, hv⟩
          · exact .inr (List.mem_cons_of_mem _ hp)
      · rcases List.mem_cons.mp hp with rfl | hp
        · exact .inr (by simp)
        · exact (ih hp).imp id (List.mem_cons_of_mem _)

/-- A write keeps the numbers strictly rising. -/
theorem Sparse.rising_set {α : Type} [DecidableEq α] (d : α) (t : Sparse α) (hr : Sparse.rising t) (k : Nat) (v : α) :
    Sparse.rising (Sparse.set d t k v) := by
  induction t with
  | nil => by_cases hv : v = d <;> simp [Sparse.set, Sparse.rising, hv]
  | cons x xs ih =>
    obtain ⟨kx, vx⟩ := x
    have hr' := List.pairwise_cons.mp hr
    simp only [Sparse.set]
    split
    · rename_i h1
      split
      · exact hr
      · refine List.pairwise_cons.mpr ⟨fun p hp => ?_, hr⟩
        rcases List.mem_cons.mp hp with rfl | hp
        · exact h1
        · exact lt_trans h1 (hr'.1 p hp)
    · rename_i h1
      split
      · rename_i h2
        subst h2
        split
        · exact hr'.2
        · exact List.pairwise_cons.mpr ⟨fun p hp => hr'.1 p hp, hr'.2⟩
      · rename_i h2
        refine List.pairwise_cons.mpr ⟨fun p hp => ?_, ih hr'.2⟩
        rcases Sparse.mem_set d xs k v p hp with ⟨rfl, _⟩ | hp
        · simp only; omega
        · exact hr'.1 p hp

theorem Sparse.wf_iff {α : Type} [DecidableEq α] (d : α) (n : Nat) (t : Sparse α) :
    Sparse.wf d n t = true ↔ Sparse.rising t ∧ ∀ p ∈ t, p.1 < n ∧ p.2 ≠ d := by
  simp [Sparse.wf, Sparse.rising]

@[simp] theorem Sparse.wf_nil {α : Type} [DecidableEq α] (d : α) (n : Nat) : Sparse.wf d n ([] : Sparse α) = true := by
  simp [Sparse.wf]

/-- A write below the bound keeps the canonical form. -/
theorem Sparse.wf_set {α : Type} [DecidableEq α] (d : α) (n : Nat) (t : Sparse α) (ht : Sparse.wf d n t = true)
    (k : Nat) (hk : k < n) (v : α) : Sparse.wf d n (Sparse.set d t k v) = true := by
  rw [Sparse.wf_iff] at ht ⊢
  refine ⟨Sparse.rising_set d t ht.1 k v, fun p hp => ?_⟩
  rcases Sparse.mem_set d t k v p hp with ⟨rfl, hv⟩ | hp
  · exact ⟨hk, hv⟩
  · exact ht.2 p hp

theorem Sparse.mem_update {α : Type} [DecidableEq α] (d : α) (n : Nat) (f : Nat → α → α) (t : Sparse α)
    (p : Nat × α) (hp : p ∈ Sparse.update d n f t) : p.1 < n ∧ p.2 ≠ d ∧ p.2 = f p.1 (Sparse.get d t p.1) := by
  simp only [Sparse.update, List.mem_filterMap, List.mem_range] at hp
  obtain ⟨k, hk, hp⟩ := hp
  split at hp
  · cases hp
  · rename_i hv
    cases hp
    exact ⟨hk, hv, rfl⟩

theorem Sparse.rising_update {α : Type} [DecidableEq α] (d : α) (n : Nat) (f : Nat → α → α) (t : Sparse α) :
    Sparse.rising (Sparse.update d n f t) := by
  refine List.Pairwise.filterMap (R := fun a b => a < b) _ ?_ (List.pairwise_lt_range)
  intro a a' haa b hb b' hb'
  split at hb
  · cases hb
  · split at hb'
    · cases hb'
    · cases hb; cases hb'; exact haa

/-- An update is in canonical form. -/
theorem Sparse.wf_update {α : Type} [DecidableEq α] (d : α) (n : Nat) (f : Nat → α → α) (t : Sparse α) :
    Sparse.wf d n (Sparse.update d n f t) = true := by
  rw [Sparse.wf_iff]
  exact ⟨Sparse.rising_update d n f t, fun p hp =>
    ⟨(Sparse.mem_update d n f t p hp).1, (Sparse.mem_update d n f t p hp).2.1⟩⟩

/-- A listed value is what its number reads as. -/
theorem Sparse.get_of_mem {α : Type} (d : α) (t : Sparse α) (hr : Sparse.rising t) (p : Nat × α) (hp : p ∈ t) :
    Sparse.get d t p.1 = p.2 := by
  induction t with
  | nil => cases hp
  | cons x xs ih =>
    have hr' := List.pairwise_cons.mp hr
    rcases List.mem_cons.mp hp with h | h
    · subst h
      simp [Sparse.get]
    · have hlt : x.1 < p.1 := hr'.1 p h
      obtain ⟨kx, vx⟩ := x
      rw [Sparse.get, if_neg (by simp only at hlt; omega)]
      exact ih hr'.2 h

/-- A number that is not listed reads as the default. -/
theorem Sparse.get_of_not_mem {α : Type} (d : α) (t : Sparse α) (k : Nat) (h : ∀ p ∈ t, p.1 ≠ k) :
    Sparse.get d t k = d := by
  induction t with
  | nil => rfl
  | cons x xs ih =>
    have hx : x.1 ≠ k := h x (by simp)
    obtain ⟨k', v⟩ := x
    rw [Sparse.get, if_neg hx]
    exact ih fun p hp => h p (by simp [hp])

/-- A read after an update: the function of the number and of the value before, below the bound. -/
theorem Sparse.get_update {α : Type} [DecidableEq α] (d : α) (n : Nat) (f : Nat → α → α) (t : Sparse α) (k : Nat) :
    Sparse.get d (Sparse.update d n f t) k = if k < n then f k (Sparse.get d t k) else d := by
  by_cases hk : k < n
  · rw [if_pos hk]
    by_cases hv : f k (Sparse.get d t k) = d
    · rw [hv]
      apply Sparse.get_of_not_mem
      intro p hp hpk
      obtain ⟨_, h2, h3⟩ := Sparse.mem_update d n f t p hp
      exact h2 (by rw [h3, hpk, hv])
    · have hmem : (k, f k (Sparse.get d t k)) ∈ Sparse.update d n f t := by
        simp only [Sparse.update, List.mem_filterMap, List.mem_range]
        exact ⟨k, hk, by rw [if_neg hv]⟩
      exact Sparse.get_of_mem d _ (Sparse.rising_update d n f t) _ hmem
  · rw [if_neg hk]
    apply Sparse.get_of_not_mem
    intro p hp hpk
    have := (Sparse.mem_update d n f t p hp).1
    omega

end Sys2Proof.Machine
end

