-- ==== Sys2Proof/Laws/State.lean ====
section
/-! SUPPORT. What each shared update leaves in each field of the state, one lemma per field per update. -/

namespace Sys2Proof.Machine

/-! ### raise -/

@[simp] theorem State.raise_map (s : State) (k : Kind) : (s.raise k).map = s.map := rfl
@[simp] theorem State.raise_profiles (s : State) (k : Kind) : (s.raise k).profiles = s.profiles := rfl
@[simp] theorem State.raise_settings (s : State) (k : Kind) : (s.raise k).settings = s.settings := rfl
@[simp] theorem State.raise_sweep (s : State) (k : Kind) : (s.raise k).sweep = s.sweep := rfl
@[simp] theorem State.raise_capture (s : State) (k : Kind) : (s.raise k).capture = s.capture := rfl
@[simp] theorem State.raise_index (s : State) (k : Kind) : (s.raise k).index = s.index := rfl
@[simp] theorem State.raise_held (s : State) (k : Kind) : (s.raise k).held = s.held := rfl
@[simp] theorem State.raise_publishing (s : State) (k : Kind) : (s.raise k).publishing = s.publishing := rfl
@[simp] theorem State.raise_autoRequests (s : State) (k : Kind) : (s.raise k).autoRequests = s.autoRequests := rfl
@[simp] theorem State.raise_publishAtOnce (s : State) (k : Kind) : (s.raise k).publishAtOnce = s.publishAtOnce := rfl
@[simp] theorem State.raise_autoOrder (s : State) (k : Kind) : (s.raise k).autoOrder = s.autoOrder := rfl
@[simp] theorem State.raise_runs (s : State) (k : Kind) : (s.raise k).runs = s.runs := rfl
@[simp] theorem State.raise_ff (s : State) (k : Kind) : (s.raise k).ff = s.ff := rfl
@[simp] theorem State.raise_exclusions (s : State) (k : Kind) : (s.raise k).exclusions = s.exclusions := rfl
@[simp] theorem State.raise_perms (s : State) (k : Kind) : (s.raise k).perms = s.perms := rfl
@[simp] theorem State.raise_bench (s : State) (k : Kind) :
    (s.raise k).bench =
      { s.bench with flags := s.bench.flags.add k } := rfl
@[simp] theorem State.raise_startup (s : State) (k : Kind) : (s.raise k).startup = s.startup := rfl
@[simp] theorem State.raise_pending (s : State) (k : Kind) : (s.raise k).pending = s.pending := rfl

/-! ### accept -/

@[simp] theorem State.accept_map (s : State) : (s.accept).map = s.map := rfl
@[simp] theorem State.accept_profiles (s : State) : (s.accept).profiles = s.profiles := rfl
@[simp] theorem State.accept_settings (s : State) : (s.accept).settings = s.settings := rfl
@[simp] theorem State.accept_sweep (s : State) : (s.accept).sweep = s.sweep := rfl
@[simp] theorem State.accept_capture (s : State) : (s.accept).capture = s.capture := rfl
@[simp] theorem State.accept_index (s : State) : (s.accept).index = s.index := rfl
@[simp] theorem State.accept_held (s : State) : (s.accept).held = s.held := rfl
@[simp] theorem State.accept_publishing (s : State) : (s.accept).publishing = s.publishing := rfl
@[simp] theorem State.accept_autoRequests (s : State) : (s.accept).autoRequests = s.autoRequests := rfl
@[simp] theorem State.accept_publishAtOnce (s : State) : (s.accept).publishAtOnce = s.publishAtOnce := rfl
@[simp] theorem State.accept_autoOrder (s : State) : (s.accept).autoOrder = s.autoOrder := rfl
@[simp] theorem State.accept_runs (s : State) : (s.accept).runs = s.runs := rfl
@[simp] theorem State.accept_ff (s : State) : (s.accept).ff = s.ff := rfl
@[simp] theorem State.accept_exclusions (s : State) : (s.accept).exclusions = s.exclusions := rfl
@[simp] theorem State.accept_perms (s : State) : (s.accept).perms = s.perms := rfl
@[simp] theorem State.accept_bench (s : State) : (s.accept).bench = { s.bench with lastOutcome := .accepted } := rfl
@[simp] theorem State.accept_startup (s : State) : (s.accept).startup = s.startup := rfl
@[simp] theorem State.accept_pending (s : State) : (s.accept).pending = s.pending := rfl

/-! ### refuse -/

@[simp] theorem State.refuse_map (s : State) (o : Outcome) : (s.refuse o).map = s.map := rfl
@[simp] theorem State.refuse_profiles (s : State) (o : Outcome) : (s.refuse o).profiles = s.profiles := rfl
@[simp] theorem State.refuse_settings (s : State) (o : Outcome) : (s.refuse o).settings = s.settings := rfl
@[simp] theorem State.refuse_sweep (s : State) (o : Outcome) : (s.refuse o).sweep = s.sweep := rfl
@[simp] theorem State.refuse_capture (s : State) (o : Outcome) : (s.refuse o).capture = s.capture := rfl
@[simp] theorem State.refuse_index (s : State) (o : Outcome) : (s.refuse o).index = s.index := rfl
@[simp] theorem State.refuse_held (s : State) (o : Outcome) : (s.refuse o).held = s.held := rfl
@[simp] theorem State.refuse_publishing (s : State) (o : Outcome) :
    (s.refuse o).publishing =
      s.publishing := rfl
@[simp] theorem State.refuse_autoRequests (s : State) (o : Outcome) :
    (s.refuse o).autoRequests =
      s.autoRequests := rfl
@[simp] theorem State.refuse_publishAtOnce (s : State) (o : Outcome) :
    (s.refuse o).publishAtOnce =
      s.publishAtOnce := rfl
@[simp] theorem State.refuse_autoOrder (s : State) (o : Outcome) :
    (s.refuse o).autoOrder =
      s.autoOrder := rfl
@[simp] theorem State.refuse_runs (s : State) (o : Outcome) : (s.refuse o).runs = s.runs := rfl
@[simp] theorem State.refuse_ff (s : State) (o : Outcome) : (s.refuse o).ff = s.ff := rfl
@[simp] theorem State.refuse_exclusions (s : State) (o : Outcome) : (s.refuse o).exclusions = s.exclusions := rfl
@[simp] theorem State.refuse_perms (s : State) (o : Outcome) : (s.refuse o).perms = s.perms := rfl
@[simp] theorem State.refuse_bench (s : State) (o : Outcome) :
    (s.refuse o).bench =
      { s.bench with lastOutcome := o, flags := s.bench.flags.add .commandRefused } := rfl
@[simp] theorem State.refuse_startup (s : State) (o : Outcome) : (s.refuse o).startup = s.startup := rfl
@[simp] theorem State.refuse_pending (s : State) (o : Outcome) : (s.refuse o).pending = s.pending := rfl

/-! ### countDiscard -/

@[simp] theorem State.countDiscard_map (s : State) (d : Discard) : (s.countDiscard d).map = s.map := rfl
@[simp] theorem State.countDiscard_profiles (s : State) (d : Discard) :
    (s.countDiscard d).profiles =
      s.profiles := rfl
@[simp] theorem State.countDiscard_settings (s : State) (d : Discard) :
    (s.countDiscard d).settings =
      s.settings := rfl
@[simp] theorem State.countDiscard_sweep (s : State) (d : Discard) : (s.countDiscard d).sweep = s.sweep := rfl
@[simp] theorem State.countDiscard_capture (s : State) (d : Discard) : (s.countDiscard d).capture = s.capture := rfl
@[simp] theorem State.countDiscard_index (s : State) (d : Discard) : (s.countDiscard d).index = s.index := rfl
@[simp] theorem State.countDiscard_held (s : State) (d : Discard) : (s.countDiscard d).held = s.held := rfl
@[simp] theorem State.countDiscard_publishing (s : State) (d : Discard) :
    (s.countDiscard d).publishing =
      s.publishing := rfl
@[simp] theorem State.countDiscard_autoRequests (s : State) (d : Discard) :
    (s.countDiscard d).autoRequests =
      s.autoRequests := rfl
@[simp] theorem State.countDiscard_publishAtOnce (s : State) (d : Discard) :
    (s.countDiscard d).publishAtOnce =
      s.publishAtOnce := rfl
@[simp] theorem State.countDiscard_autoOrder (s : State) (d : Discard) :
    (s.countDiscard d).autoOrder =
      s.autoOrder := rfl
@[simp] theorem State.countDiscard_runs (s : State) (d : Discard) :
    (s.countDiscard d).runs =
      { s.runs with active := s.runs.active.map (·.count d) } := rfl
@[simp] theorem State.countDiscard_ff (s : State) (d : Discard) : (s.countDiscard d).ff = s.ff := rfl
@[simp] theorem State.countDiscard_exclusions (s : State) (d : Discard) :
    (s.countDiscard d).exclusions =
      s.exclusions := rfl
@[simp] theorem State.countDiscard_perms (s : State) (d : Discard) : (s.countDiscard d).perms = s.perms := rfl
@[simp] theorem State.countDiscard_bench (s : State) (d : Discard) : (s.countDiscard d).bench = s.bench := rfl
@[simp] theorem State.countDiscard_startup (s : State) (d : Discard) : (s.countDiscard d).startup = s.startup := rfl
@[simp] theorem State.countDiscard_pending (s : State) (d : Discard) : (s.countDiscard d).pending = s.pending := rfl

/-! ### modifyCell -/

@[simp] theorem State.modifyCell_map (s : State) (h : Head) (w : Nat) (f : Cell → Cell) :
    (s.modifyCell h w f).map =
      modifyCellOf s.map h w f := rfl
@[simp] theorem State.modifyCell_profiles (s : State) (h : Head) (w : Nat) (f : Cell → Cell) :
    (s.modifyCell h w f).profiles =
      s.profiles := rfl
@[simp] theorem State.modifyCell_settings (s : State) (h : Head) (w : Nat) (f : Cell → Cell) :
    (s.modifyCell h w f).settings =
      s.settings := rfl
@[simp] theorem State.modifyCell_sweep (s : State) (h : Head) (w : Nat) (f : Cell → Cell) :
    (s.modifyCell h w f).sweep =
      s.sweep := rfl
@[simp] theorem State.modifyCell_capture (s : State) (h : Head) (w : Nat) (f : Cell → Cell) :
    (s.modifyCell h w f).capture =
      s.capture := rfl
@[simp] theorem State.modifyCell_index (s : State) (h : Head) (w : Nat) (f : Cell → Cell) :
    (s.modifyCell h w f).index =
      s.index := rfl
@[simp] theorem State.modifyCell_held (s : State) (h : Head) (w : Nat) (f : Cell → Cell) :
    (s.modifyCell h w f).held =
      s.held := rfl
@[simp] theorem State.modifyCell_publishing (s : State) (h : Head) (w : Nat) (f : Cell → Cell) :
    (s.modifyCell h w f).publishing =
      s.publishing := rfl
@[simp] theorem State.modifyCell_autoRequests (s : State) (h : Head) (w : Nat) (f : Cell → Cell) :
    (s.modifyCell h w f).autoRequests =
      s.autoRequests := rfl
@[simp] theorem State.modifyCell_publishAtOnce (s : State) (h : Head) (w : Nat) (f : Cell → Cell) :
    (s.modifyCell h w f).publishAtOnce =
      s.publishAtOnce := rfl
@[simp] theorem State.modifyCell_autoOrder (s : State) (h : Head) (w : Nat) (f : Cell → Cell) :
    (s.modifyCell h w f).autoOrder =
      s.autoOrder := rfl
@[simp] theorem State.modifyCell_runs (s : State) (h : Head) (w : Nat) (f : Cell → Cell) :
    (s.modifyCell h w f).runs =
      s.runs := rfl
@[simp] theorem State.modifyCell_ff (s : State) (h : Head) (w : Nat) (f : Cell → Cell) :
    (s.modifyCell h w f).ff =
      s.ff := rfl
@[simp] theorem State.modifyCell_exclusions (s : State) (h : Head) (w : Nat) (f : Cell → Cell) :
    (s.modifyCell h w f).exclusions =
      s.exclusions := rfl
@[simp] theorem State.modifyCell_perms (s : State) (h : Head) (w : Nat) (f : Cell → Cell) :
    (s.modifyCell h w f).perms =
      s.perms := rfl
@[simp] theorem State.modifyCell_bench (s : State) (h : Head) (w : Nat) (f : Cell → Cell) :
    (s.modifyCell h w f).bench =
      s.bench := rfl
@[simp] theorem State.modifyCell_startup (s : State) (h : Head) (w : Nat) (f : Cell → Cell) :
    (s.modifyCell h w f).startup =
      s.startup := rfl
@[simp] theorem State.modifyCell_pending (s : State) (h : Head) (w : Nat) (f : Cell → Cell) :
    (s.modifyCell h w f).pending =
      s.pending := rfl

/-! ### modifyProfile -/

@[simp] theorem State.modifyProfile_map (s : State) (h : Head) (f : Profile → Profile) :
    (s.modifyProfile h f).map =
      s.map := rfl
@[simp] theorem State.modifyProfile_profiles (s : State) (h : Head) (f : Profile → Profile) :
    (s.modifyProfile h f).profiles =
      s.profiles.modify h f := rfl
@[simp] theorem State.modifyProfile_settings (s : State) (h : Head) (f : Profile → Profile) :
    (s.modifyProfile h f).settings =
      s.settings := rfl
@[simp] theorem State.modifyProfile_sweep (s : State) (h : Head) (f : Profile → Profile) :
    (s.modifyProfile h f).sweep =
      s.sweep := rfl
@[simp] theorem State.modifyProfile_capture (s : State) (h : Head) (f : Profile → Profile) :
    (s.modifyProfile h f).capture =
      s.capture := rfl
@[simp] theorem State.modifyProfile_index (s : State) (h : Head) (f : Profile → Profile) :
    (s.modifyProfile h f).index =
      s.index := rfl
@[simp] theorem State.modifyProfile_held (s : State) (h : Head) (f : Profile → Profile) :
    (s.modifyProfile h f).held =
      s.held := rfl
@[simp] theorem State.modifyProfile_publishing (s : State) (h : Head) (f : Profile → Profile) :
    (s.modifyProfile h f).publishing =
      s.publishing := rfl
@[simp] theorem State.modifyProfile_autoRequests (s : State) (h : Head) (f : Profile → Profile) :
    (s.modifyProfile h f).autoRequests =
      s.autoRequests := rfl
@[simp] theorem State.modifyProfile_publishAtOnce (s : State) (h : Head) (f : Profile → Profile) :
    (s.modifyProfile h f).publishAtOnce =
      s.publishAtOnce := rfl
@[simp] theorem State.modifyProfile_autoOrder (s : State) (h : Head) (f : Profile → Profile) :
    (s.modifyProfile h f).autoOrder =
      s.autoOrder := rfl
@[simp] theorem State.modifyProfile_runs (s : State) (h : Head) (f : Profile → Profile) :
    (s.modifyProfile h f).runs =
      s.runs := rfl
@[simp] theorem State.modifyProfile_ff (s : State) (h : Head) (f : Profile → Profile) :
    (s.modifyProfile h f).ff =
      s.ff := rfl
@[simp] theorem State.modifyProfile_exclusions (s : State) (h : Head) (f : Profile → Profile) :
    (s.modifyProfile h f).exclusions =
      s.exclusions := rfl
@[simp] theorem State.modifyProfile_perms (s : State) (h : Head) (f : Profile → Profile) :
    (s.modifyProfile h f).perms =
      s.perms := rfl
@[simp] theorem State.modifyProfile_bench (s : State) (h : Head) (f : Profile → Profile) :
    (s.modifyProfile h f).bench =
      s.bench := rfl
@[simp] theorem State.modifyProfile_startup (s : State) (h : Head) (f : Profile → Profile) :
    (s.modifyProfile h f).startup =
      s.startup := rfl
@[simp] theorem State.modifyProfile_pending (s : State) (h : Head) (f : Profile → Profile) :
    (s.modifyProfile h f).pending =
      s.pending := rfl

/-! ### setFrame -/

@[simp] theorem State.setFrame_map (s : State) (f : List Word) : (s.setFrame f).map = s.map := rfl
@[simp] theorem State.setFrame_profiles (s : State) (f : List Word) : (s.setFrame f).profiles = s.profiles := rfl
@[simp] theorem State.setFrame_settings (s : State) (f : List Word) : (s.setFrame f).settings = s.settings := rfl
@[simp] theorem State.setFrame_sweep (s : State) (f : List Word) : (s.setFrame f).sweep = s.sweep := rfl
@[simp] theorem State.setFrame_capture (s : State) (f : List Word) :
    (s.setFrame f).capture =
      { s.capture with frame := f } := rfl
@[simp] theorem State.setFrame_index (s : State) (f : List Word) : (s.setFrame f).index = s.index := rfl
@[simp] theorem State.setFrame_held (s : State) (f : List Word) : (s.setFrame f).held = s.held := rfl
@[simp] theorem State.setFrame_publishing (s : State) (f : List Word) :
    (s.setFrame f).publishing =
      s.publishing := rfl
@[simp] theorem State.setFrame_autoRequests (s : State) (f : List Word) :
    (s.setFrame f).autoRequests =
      s.autoRequests := rfl
@[simp] theorem State.setFrame_publishAtOnce (s : State) (f : List Word) :
    (s.setFrame f).publishAtOnce =
      s.publishAtOnce := rfl
@[simp] theorem State.setFrame_autoOrder (s : State) (f : List Word) :
    (s.setFrame f).autoOrder =
      s.autoOrder := rfl
@[simp] theorem State.setFrame_runs (s : State) (f : List Word) : (s.setFrame f).runs = s.runs := rfl
@[simp] theorem State.setFrame_ff (s : State) (f : List Word) : (s.setFrame f).ff = s.ff := rfl
@[simp] theorem State.setFrame_exclusions (s : State) (f : List Word) :
    (s.setFrame f).exclusions =
      s.exclusions := rfl
@[simp] theorem State.setFrame_perms (s : State) (f : List Word) : (s.setFrame f).perms = s.perms := rfl
@[simp] theorem State.setFrame_bench (s : State) (f : List Word) : (s.setFrame f).bench = s.bench := rfl
@[simp] theorem State.setFrame_startup (s : State) (f : List Word) : (s.setFrame f).startup = s.startup := rfl
@[simp] theorem State.setFrame_pending (s : State) (f : List Word) : (s.setFrame f).pending = s.pending := rfl

/-! ### setRun -/

@[simp] theorem State.setRun_map (s : State) (c : RunCtx) : (s.setRun c).map = s.map := rfl
@[simp] theorem State.setRun_profiles (s : State) (c : RunCtx) : (s.setRun c).profiles = s.profiles := rfl
@[simp] theorem State.setRun_settings (s : State) (c : RunCtx) : (s.setRun c).settings = s.settings := rfl
@[simp] theorem State.setRun_sweep (s : State) (c : RunCtx) : (s.setRun c).sweep = s.sweep := rfl
@[simp] theorem State.setRun_capture (s : State) (c : RunCtx) : (s.setRun c).capture = s.capture := rfl
@[simp] theorem State.setRun_index (s : State) (c : RunCtx) : (s.setRun c).index = s.index := rfl
@[simp] theorem State.setRun_held (s : State) (c : RunCtx) : (s.setRun c).held = s.held := rfl
@[simp] theorem State.setRun_publishing (s : State) (c : RunCtx) : (s.setRun c).publishing = s.publishing := rfl
@[simp] theorem State.setRun_autoRequests (s : State) (c : RunCtx) : (s.setRun c).autoRequests = s.autoRequests := rfl
@[simp] theorem State.setRun_publishAtOnce (s : State) (c : RunCtx) : (s.setRun c).publishAtOnce = s.publishAtOnce := rfl
@[simp] theorem State.setRun_autoOrder (s : State) (c : RunCtx) : (s.setRun c).autoOrder = s.autoOrder := rfl
@[simp] theorem State.setRun_runs (s : State) (c : RunCtx) :
    (s.setRun c).runs =
      { s.runs with active := some c } := rfl
@[simp] theorem State.setRun_ff (s : State) (c : RunCtx) : (s.setRun c).ff = s.ff := rfl
@[simp] theorem State.setRun_exclusions (s : State) (c : RunCtx) : (s.setRun c).exclusions = s.exclusions := rfl
@[simp] theorem State.setRun_perms (s : State) (c : RunCtx) : (s.setRun c).perms = s.perms := rfl
@[simp] theorem State.setRun_bench (s : State) (c : RunCtx) : (s.setRun c).bench = s.bench := rfl
@[simp] theorem State.setRun_startup (s : State) (c : RunCtx) : (s.setRun c).startup = s.startup := rfl
@[simp] theorem State.setRun_pending (s : State) (c : RunCtx) : (s.setRun c).pending = s.pending := rfl

/-! ### setServer -/

@[simp] theorem State.setServer_map (s : State) (x : FFState) : (s.setServer x).map = s.map := rfl
@[simp] theorem State.setServer_profiles (s : State) (x : FFState) : (s.setServer x).profiles = s.profiles := rfl
@[simp] theorem State.setServer_settings (s : State) (x : FFState) : (s.setServer x).settings = s.settings := rfl
@[simp] theorem State.setServer_sweep (s : State) (x : FFState) : (s.setServer x).sweep = s.sweep := rfl
@[simp] theorem State.setServer_capture (s : State) (x : FFState) : (s.setServer x).capture = s.capture := rfl
@[simp] theorem State.setServer_index (s : State) (x : FFState) : (s.setServer x).index = s.index := rfl
@[simp] theorem State.setServer_held (s : State) (x : FFState) : (s.setServer x).held = s.held := rfl
@[simp] theorem State.setServer_publishing (s : State) (x : FFState) :
    (s.setServer x).publishing =
      s.publishing := rfl
@[simp] theorem State.setServer_autoRequests (s : State) (x : FFState) :
    (s.setServer x).autoRequests =
      s.autoRequests := rfl
@[simp] theorem State.setServer_publishAtOnce (s : State) (x : FFState) :
    (s.setServer x).publishAtOnce =
      s.publishAtOnce := rfl
@[simp] theorem State.setServer_autoOrder (s : State) (x : FFState) :
    (s.setServer x).autoOrder =
      s.autoOrder := rfl
@[simp] theorem State.setServer_runs (s : State) (x : FFState) : (s.setServer x).runs = s.runs := rfl
@[simp] theorem State.setServer_ff (s : State) (x : FFState) : (s.setServer x).ff = { s.ff with server := x } := rfl
@[simp] theorem State.setServer_exclusions (s : State) (x : FFState) :
    (s.setServer x).exclusions =
      s.exclusions := rfl
@[simp] theorem State.setServer_perms (s : State) (x : FFState) : (s.setServer x).perms = s.perms := rfl
@[simp] theorem State.setServer_bench (s : State) (x : FFState) : (s.setServer x).bench = s.bench := rfl
@[simp] theorem State.setServer_startup (s : State) (x : FFState) : (s.setServer x).startup = s.startup := rfl
@[simp] theorem State.setServer_pending (s : State) (x : FFState) : (s.setServer x).pending = s.pending := rfl

/-! ### setStrap -/

@[simp] theorem State.setStrap_map (s : State) (b : Bool) : (s.setStrap b).map = s.map := rfl
@[simp] theorem State.setStrap_profiles (s : State) (b : Bool) : (s.setStrap b).profiles = s.profiles := rfl
@[simp] theorem State.setStrap_settings (s : State) (b : Bool) : (s.setStrap b).settings = s.settings := rfl
@[simp] theorem State.setStrap_sweep (s : State) (b : Bool) : (s.setStrap b).sweep = s.sweep := rfl
@[simp] theorem State.setStrap_capture (s : State) (b : Bool) : (s.setStrap b).capture = s.capture := rfl
@[simp] theorem State.setStrap_index (s : State) (b : Bool) : (s.setStrap b).index = s.index := rfl
@[simp] theorem State.setStrap_held (s : State) (b : Bool) : (s.setStrap b).held = s.held := rfl
@[simp] theorem State.setStrap_publishing (s : State) (b : Bool) :
    (s.setStrap b).publishing =
      s.publishing := rfl
@[simp] theorem State.setStrap_autoRequests (s : State) (b : Bool) :
    (s.setStrap b).autoRequests =
      s.autoRequests := rfl
@[simp] theorem State.setStrap_publishAtOnce (s : State) (b : Bool) :
    (s.setStrap b).publishAtOnce =
      s.publishAtOnce := rfl
@[simp] theorem State.setStrap_autoOrder (s : State) (b : Bool) :
    (s.setStrap b).autoOrder =
      s.autoOrder := rfl
@[simp] theorem State.setStrap_runs (s : State) (b : Bool) : (s.setStrap b).runs = s.runs := rfl
@[simp] theorem State.setStrap_ff (s : State) (b : Bool) : (s.setStrap b).ff = s.ff := rfl
@[simp] theorem State.setStrap_exclusions (s : State) (b : Bool) : (s.setStrap b).exclusions = s.exclusions := rfl
@[simp] theorem State.setStrap_perms (s : State) (b : Bool) : (s.setStrap b).perms = s.perms := rfl
@[simp] theorem State.setStrap_bench (s : State) (b : Bool) : (s.setStrap b).bench = s.bench := rfl
@[simp] theorem State.setStrap_startup (s : State) (b : Bool) :
    (s.setStrap b).startup =
      { s.startup with strap := b } := rfl
@[simp] theorem State.setStrap_pending (s : State) (b : Bool) : (s.setStrap b).pending = s.pending := rfl

/-! ### setPresLine -/

@[simp] theorem State.setPresLine_map (s : State) (b : Bool) : (s.setPresLine b).map = s.map := rfl
@[simp] theorem State.setPresLine_profiles (s : State) (b : Bool) : (s.setPresLine b).profiles = s.profiles := rfl
@[simp] theorem State.setPresLine_settings (s : State) (b : Bool) : (s.setPresLine b).settings = s.settings := rfl
@[simp] theorem State.setPresLine_sweep (s : State) (b : Bool) : (s.setPresLine b).sweep = s.sweep := rfl
@[simp] theorem State.setPresLine_capture (s : State) (b : Bool) : (s.setPresLine b).capture = s.capture := rfl
@[simp] theorem State.setPresLine_index (s : State) (b : Bool) : (s.setPresLine b).index = s.index := rfl
@[simp] theorem State.setPresLine_held (s : State) (b : Bool) : (s.setPresLine b).held = s.held := rfl
@[simp] theorem State.setPresLine_publishing (s : State) (b : Bool) :
    (s.setPresLine b).publishing =
      s.publishing := rfl
@[simp] theorem State.setPresLine_autoRequests (s : State) (b : Bool) :
    (s.setPresLine b).autoRequests =
      s.autoRequests := rfl
@[simp] theorem State.setPresLine_publishAtOnce (s : State) (b : Bool) :
    (s.setPresLine b).publishAtOnce =
      s.publishAtOnce := rfl
@[simp] theorem State.setPresLine_autoOrder (s : State) (b : Bool) :
    (s.setPresLine b).autoOrder =
      s.autoOrder := rfl
@[simp] theorem State.setPresLine_runs (s : State) (b : Bool) : (s.setPresLine b).runs = s.runs := rfl
@[simp] theorem State.setPresLine_ff (s : State) (b : Bool) : (s.setPresLine b).ff = s.ff := rfl
@[simp] theorem State.setPresLine_exclusions (s : State) (b : Bool) :
    (s.setPresLine b).exclusions =
      s.exclusions := rfl
@[simp] theorem State.setPresLine_perms (s : State) (b : Bool) : (s.setPresLine b).perms = s.perms := rfl
@[simp] theorem State.setPresLine_bench (s : State) (b : Bool) : (s.setPresLine b).bench = s.bench := rfl
@[simp] theorem State.setPresLine_startup (s : State) (b : Bool) :
    (s.setPresLine b).startup =
      { s.startup with presLine := b } := rfl
@[simp] theorem State.setPresLine_pending (s : State) (b : Bool) : (s.setPresLine b).pending = s.pending := rfl

/-! ### setImport -/

@[simp] theorem State.setImport_map (s : State) (i : Import) : (s.setImport i).map = s.map := rfl
@[simp] theorem State.setImport_profiles (s : State) (i : Import) : (s.setImport i).profiles = s.profiles := rfl
@[simp] theorem State.setImport_settings (s : State) (i : Import) : (s.setImport i).settings = s.settings := rfl
@[simp] theorem State.setImport_sweep (s : State) (i : Import) : (s.setImport i).sweep = s.sweep := rfl
@[simp] theorem State.setImport_capture (s : State) (i : Import) : (s.setImport i).capture = s.capture := rfl
@[simp] theorem State.setImport_index (s : State) (i : Import) : (s.setImport i).index = s.index := rfl
@[simp] theorem State.setImport_held (s : State) (i : Import) : (s.setImport i).held = s.held := rfl
@[simp] theorem State.setImport_publishing (s : State) (i : Import) :
    (s.setImport i).publishing =
      s.publishing := rfl
@[simp] theorem State.setImport_autoRequests (s : State) (i : Import) :
    (s.setImport i).autoRequests =
      s.autoRequests := rfl
@[simp] theorem State.setImport_publishAtOnce (s : State) (i : Import) :
    (s.setImport i).publishAtOnce =
      s.publishAtOnce := rfl
@[simp] theorem State.setImport_autoOrder (s : State) (i : Import) :
    (s.setImport i).autoOrder =
      s.autoOrder := rfl
@[simp] theorem State.setImport_runs (s : State) (i : Import) : (s.setImport i).runs = s.runs := rfl
@[simp] theorem State.setImport_ff (s : State) (i : Import) : (s.setImport i).ff = s.ff := rfl
@[simp] theorem State.setImport_exclusions (s : State) (i : Import) : (s.setImport i).exclusions = s.exclusions := rfl
@[simp] theorem State.setImport_perms (s : State) (i : Import) : (s.setImport i).perms = s.perms := rfl
@[simp] theorem State.setImport_bench (s : State) (i : Import) :
    (s.setImport i).bench =
      { s.bench with assembly := .takingData (some i) } := rfl
@[simp] theorem State.setImport_startup (s : State) (i : Import) : (s.setImport i).startup = s.startup := rfl
@[simp] theorem State.setImport_pending (s : State) (i : Import) : (s.setImport i).pending = s.pending := rfl

/-! ### enterExclusion -/

@[simp] theorem State.enterExclusion_map (s : State) (h : Head) (w : Nat) :
    (s.enterExclusion h w).map =
      modifyCellOf s.map h w fun c => { c with state := .excluded } := rfl
@[simp] theorem State.enterExclusion_profiles (s : State) (h : Head) (w : Nat) :
    (s.enterExclusion h w).profiles =
      s.profiles := rfl
@[simp] theorem State.enterExclusion_settings (s : State) (h : Head) (w : Nat) :
    (s.enterExclusion h w).settings =
      s.settings := rfl
@[simp] theorem State.enterExclusion_sweep (s : State) (h : Head) (w : Nat) :
    (s.enterExclusion h w).sweep =
      s.sweep := rfl
@[simp] theorem State.enterExclusion_capture (s : State) (h : Head) (w : Nat) :
    (s.enterExclusion h w).capture =
      s.capture := rfl
@[simp] theorem State.enterExclusion_index (s : State) (h : Head) (w : Nat) :
    (s.enterExclusion h w).index =
      s.index := rfl
@[simp] theorem State.enterExclusion_held (s : State) (h : Head) (w : Nat) :
    (s.enterExclusion h w).held =
      s.held := rfl
@[simp] theorem State.enterExclusion_publishing (s : State) (h : Head) (w : Nat) :
    (s.enterExclusion h w).publishing =
      s.publishing := rfl
@[simp] theorem State.enterExclusion_autoRequests (s : State) (h : Head) (w : Nat) :
    (s.enterExclusion h w).autoRequests =
      s.autoRequests := rfl
@[simp] theorem State.enterExclusion_publishAtOnce (s : State) (h : Head) (w : Nat) :
    (s.enterExclusion h w).publishAtOnce =
      s.publishAtOnce := rfl
@[simp] theorem State.enterExclusion_autoOrder (s : State) (h : Head) (w : Nat) :
    (s.enterExclusion h w).autoOrder =
      s.autoOrder := rfl
@[simp] theorem State.enterExclusion_runs (s : State) (h : Head) (w : Nat) :
    (s.enterExclusion h w).runs =
      s.runs := rfl
@[simp] theorem State.enterExclusion_ff (s : State) (h : Head) (w : Nat) : (s.enterExclusion h w).ff = s.ff := rfl
@[simp] theorem State.enterExclusion_exclusions (s : State) (h : Head) (w : Nat) :
    (s.enterExclusion h w).exclusions =
      insertExclusion (h, w) s.exclusions := rfl
@[simp] theorem State.enterExclusion_perms (s : State) (h : Head) (w : Nat) :
    (s.enterExclusion h w).perms =
      s.perms := rfl
@[simp] theorem State.enterExclusion_bench (s : State) (h : Head) (w : Nat) :
    (s.enterExclusion h w).bench =
      s.bench := rfl
@[simp] theorem State.enterExclusion_startup (s : State) (h : Head) (w : Nat) :
    (s.enterExclusion h w).startup =
      s.startup := rfl
@[simp] theorem State.enterExclusion_pending (s : State) (h : Head) (w : Nat) :
    (s.enterExclusion h w).pending =
      s.pending := rfl

/-! ### emptyExclusions -/

@[simp] theorem State.emptyExclusions_map (s : State) :
    (s.emptyExclusions).map =
      updateRows s.map (fun _ => true) fun _ _ => Cell.unexcluded := by unfold State.emptyExclusions; rfl
@[simp] theorem State.emptyExclusions_profiles (s : State) : (s.emptyExclusions).profiles = s.profiles := by unfold State.emptyExclusions; rfl
@[simp] theorem State.emptyExclusions_settings (s : State) : (s.emptyExclusions).settings = s.settings := by unfold State.emptyExclusions; rfl
@[simp] theorem State.emptyExclusions_sweep (s : State) : (s.emptyExclusions).sweep = s.sweep := by unfold State.emptyExclusions; rfl
@[simp] theorem State.emptyExclusions_capture (s : State) : (s.emptyExclusions).capture = s.capture := by unfold State.emptyExclusions; rfl
@[simp] theorem State.emptyExclusions_index (s : State) : (s.emptyExclusions).index = s.index := by unfold State.emptyExclusions; rfl
@[simp] theorem State.emptyExclusions_held (s : State) : (s.emptyExclusions).held = s.held := by unfold State.emptyExclusions; rfl
@[simp] theorem State.emptyExclusions_publishing (s : State) :
    (s.emptyExclusions).publishing =
      s.publishing := by unfold State.emptyExclusions; rfl
@[simp] theorem State.emptyExclusions_autoRequests (s : State) :
    (s.emptyExclusions).autoRequests =
      s.autoRequests := by unfold State.emptyExclusions; rfl
@[simp] theorem State.emptyExclusions_publishAtOnce (s : State) :
    (s.emptyExclusions).publishAtOnce =
      s.publishAtOnce := by unfold State.emptyExclusions; rfl
@[simp] theorem State.emptyExclusions_autoOrder (s : State) :
    (s.emptyExclusions).autoOrder =
      s.autoOrder := by unfold State.emptyExclusions; rfl
@[simp] theorem State.emptyExclusions_runs (s : State) : (s.emptyExclusions).runs = s.runs := by unfold State.emptyExclusions; rfl
@[simp] theorem State.emptyExclusions_ff (s : State) : (s.emptyExclusions).ff = s.ff := by unfold State.emptyExclusions; rfl
@[simp] theorem State.emptyExclusions_exclusions (s : State) : (s.emptyExclusions).exclusions = [] := by unfold State.emptyExclusions; rfl
@[simp] theorem State.emptyExclusions_perms (s : State) : (s.emptyExclusions).perms = s.perms := by unfold State.emptyExclusions; rfl
@[simp] theorem State.emptyExclusions_bench (s : State) : (s.emptyExclusions).bench = s.bench := by unfold State.emptyExclusions; rfl
@[simp] theorem State.emptyExclusions_startup (s : State) : (s.emptyExclusions).startup = s.startup := by unfold State.emptyExclusions; rfl
@[simp] theorem State.emptyExclusions_pending (s : State) : (s.emptyExclusions).pending = s.pending := by unfold State.emptyExclusions; rfl

/-! ### conclude -/

@[simp] theorem DueHead.concluded_head (o : RunOutcome) (d : DueHead) : (d.concluded o).head = d.head := by cases o <;> rfl
@[simp] theorem DueHead.concluded_rev (o : RunOutcome) (d : DueHead) : (d.concluded o).rev = d.rev := by cases o <;> rfl
@[simp] theorem DueHead.concluded_gainFound (o : RunOutcome) (d : DueHead) : (d.concluded o).gainFound = d.gainFound := by
  cases o <;> rfl
@[simp] theorem DueHead.takeGain_head (d : DueHead) (g : GainResult) : (d.takeGain g).head = d.head := by cases g <;> rfl
@[simp] theorem DueHead.takeGain_rev (d : DueHead) (g : GainResult) : (d.takeGain g).rev = d.rev := by cases g <;> rfl
@[simp] theorem DueHead.takeGain_marked (d : DueHead) (g : GainResult) : (d.takeGain g).marked = d.marked := by cases g <;> rfl
@[simp] theorem DueHead.takeGain_gainFound (d : DueHead) (g : GainResult) :
    (d.takeGain g).gainFound = (d.gainFound && match g with
      | .gain _ => false
      | .none | .insufficient | .nonPositiveStep | .gainRange => true) := by
  cases g <;> simp [DueHead.takeGain]

@[simp] theorem State.conclude_map (s : State) (ctx : RunCtx) (o : RunOutcome) (c : RunCause) (g : PerHead GainResult) :
    (s.conclude ctx o c g).map =
      updateRows s.map ctx.heads.get fun _ => belowW s.settings.wedges Cell.clearSums := rfl
@[simp] theorem State.conclude_profiles (s : State) (ctx : RunCtx) (o : RunOutcome) (c : RunCause) (g : PerHead GainResult) :
    (s.conclude ctx o c g).profiles =
      updateProfiles s.profiles fun h p => if ctx.heads.get h then p.concluded o else p := rfl
@[simp] theorem State.conclude_settings (s : State) (ctx : RunCtx) (o : RunOutcome) (c : RunCause) (g : PerHead GainResult) :
    (s.conclude ctx o c g).settings =
      s.settings := rfl
@[simp] theorem State.conclude_sweep (s : State) (ctx : RunCtx) (o : RunOutcome) (c : RunCause) (g : PerHead GainResult) :
    (s.conclude ctx o c g).sweep =
      s.sweep := rfl
@[simp] theorem State.conclude_capture (s : State) (ctx : RunCtx) (o : RunOutcome) (c : RunCause) (g : PerHead GainResult) :
    (s.conclude ctx o c g).capture =
      s.capture := rfl
@[simp] theorem State.conclude_index (s : State) (ctx : RunCtx) (o : RunOutcome) (c : RunCause) (g : PerHead GainResult) :
    (s.conclude ctx o c g).index =
      { s.index with timer := none } := rfl
@[simp] theorem State.conclude_held (s : State) (ctx : RunCtx) (o : RunOutcome) (c : RunCause) (g : PerHead GainResult) :
    (s.conclude ctx o c g).held =
      s.held := rfl
@[simp] theorem State.conclude_publishing (s : State) (ctx : RunCtx) (o : RunOutcome) (c : RunCause) (g : PerHead GainResult) :
    (s.conclude ctx o c g).publishing =
      s.publishing.map fun d => if ctx.heads.get d.head then d.concluded o else d := rfl
@[simp] theorem State.conclude_autoRequests (s : State) (ctx : RunCtx) (o : RunOutcome) (c : RunCause) (g : PerHead GainResult) :
    (s.conclude ctx o c g).autoRequests =
      s.autoRequests := rfl
@[simp] theorem State.conclude_publishAtOnce (s : State) (ctx : RunCtx) (o : RunOutcome) (c : RunCause) (g : PerHead GainResult) :
    (s.conclude ctx o c g).publishAtOnce =
      s.publishAtOnce := rfl
@[simp] theorem State.conclude_autoOrder (s : State) (ctx : RunCtx) (o : RunOutcome) (c : RunCause) (g : PerHead GainResult) :
    (s.conclude ctx o c g).autoOrder =
      s.autoOrder := rfl
@[simp] theorem State.conclude_runs (s : State) (ctx : RunCtx) (o : RunOutcome) (c : RunCause) (g : PerHead GainResult) :
    (s.conclude ctx o c g).runs =
      { s.runs with active := none, results := s.runs.results ++ [s.resultOf ctx o c g] } := rfl
@[simp] theorem State.conclude_ff (s : State) (ctx : RunCtx) (o : RunOutcome) (c : RunCause) (g : PerHead GainResult) :
    (s.conclude ctx o c g).ff =
      s.ff := rfl
@[simp] theorem State.conclude_exclusions (s : State) (ctx : RunCtx) (o : RunOutcome) (c : RunCause) (g : PerHead GainResult) :
    (s.conclude ctx o c g).exclusions =
      s.exclusions := rfl
@[simp] theorem State.conclude_perms (s : State) (ctx : RunCtx) (o : RunOutcome) (c : RunCause) (g : PerHead GainResult) :
    (s.conclude ctx o c g).perms =
      s.perms := rfl
@[simp] theorem State.conclude_bench (s : State) (ctx : RunCtx) (o : RunOutcome) (c : RunCause) (g : PerHead GainResult) :
    (s.conclude ctx o c g).bench =
      { s.bench with flags := s.bench.flags.add .runEnded } := rfl
@[simp] theorem State.conclude_startup (s : State) (ctx : RunCtx) (o : RunOutcome) (c : RunCause) (g : PerHead GainResult) :
    (s.conclude ctx o c g).startup =
      s.startup := rfl
@[simp] theorem State.conclude_pending (s : State) (ctx : RunCtx) (o : RunOutcome) (c : RunCause) (g : PerHead GainResult) :
    (s.conclude ctx o c g).pending =
      s.pending := rfl

/-! ### publishHead -/

@[simp] theorem State.publishHead_publishing (s : State) (d : DueHead) : (s.publishHead d).publishing = s.publishing := by
  unfold State.publishHead; split <;> rfl
@[simp] theorem State.publishHead_settings (s : State) (d : DueHead) : (s.publishHead d).settings = s.settings := by
  unfold State.publishHead; split <;> rfl
@[simp] theorem State.publishHead_sweep (s : State) (d : DueHead) : (s.publishHead d).sweep = s.sweep := by
  unfold State.publishHead; split <;> rfl
@[simp] theorem State.publishHead_capture (s : State) (d : DueHead) : (s.publishHead d).capture = s.capture := by
  unfold State.publishHead; split <;> rfl
@[simp] theorem State.publishHead_index (s : State) (d : DueHead) : (s.publishHead d).index = s.index := by
  unfold State.publishHead; split <;> rfl
@[simp] theorem State.publishHead_held (s : State) (d : DueHead) : (s.publishHead d).held = s.held := by
  unfold State.publishHead; split <;> rfl
@[simp] theorem State.publishHead_autoRequests (s : State) (d : DueHead) : (s.publishHead d).autoRequests = s.autoRequests := by
  unfold State.publishHead; split <;> rfl
@[simp] theorem State.publishHead_runs (s : State) (d : DueHead) : (s.publishHead d).runs = s.runs := by
  unfold State.publishHead; split <;> rfl
@[simp] theorem State.publishHead_ff (s : State) (d : DueHead) : (s.publishHead d).ff = s.ff := by
  unfold State.publishHead; split <;> rfl
@[simp] theorem State.publishHead_exclusions (s : State) (d : DueHead) : (s.publishHead d).exclusions = s.exclusions := by
  unfold State.publishHead; split <;> rfl
@[simp] theorem State.publishHead_perms (s : State) (d : DueHead) : (s.publishHead d).perms = s.perms := by
  unfold State.publishHead; split <;> rfl
@[simp] theorem State.publishHead_bench (s : State) (d : DueHead) : (s.publishHead d).bench = s.bench := by
  unfold State.publishHead; split <;> rfl
@[simp] theorem State.publishHead_startup (s : State) (d : DueHead) : (s.publishHead d).startup = s.startup := by
  unfold State.publishHead; split <;> rfl
@[simp] theorem State.publishHead_publishAtOnce (s : State) (d : DueHead) : (s.publishHead d).publishAtOnce = s.publishAtOnce := by
  unfold State.publishHead; split <;> rfl
@[simp] theorem State.publishHead_autoOrder (s : State) (d : DueHead) : (s.publishHead d).autoOrder = s.autoOrder := by
  unfold State.publishHead; split <;> rfl
@[simp] theorem State.publishHead_pending (s : State) (d : DueHead) : (s.publishHead d).pending = s.pending := by
  unfold State.publishHead; split <;> rfl

/-! ### advanceRev -/

@[simp] theorem State.advanceRev_map (s : State) : (s.advanceRev).map = s.map := rfl
@[simp] theorem State.advanceRev_profiles (s : State) : (s.advanceRev).profiles = s.profiles := rfl
@[simp] theorem State.advanceRev_settings (s : State) : (s.advanceRev).settings = s.settings := rfl
@[simp] theorem State.advanceRev_sweep (s : State) : (s.advanceRev).sweep = s.sweep := rfl
@[simp] theorem State.advanceRev_capture (s : State) : (s.advanceRev).capture = s.capture := rfl
@[simp] theorem State.advanceRev_index (s : State) :
    (s.advanceRev).index =
      { rev := s.index.rev + 1, timer := if s.runs.active.isSome then some s.settings.indexTimeout else s.index.timer } := rfl
@[simp] theorem State.advanceRev_held (s : State) : (s.advanceRev).held = s.held := rfl
@[simp] theorem State.advanceRev_publishing (s : State) : (s.advanceRev).publishing = s.publishing := rfl
@[simp] theorem State.advanceRev_autoRequests (s : State) : (s.advanceRev).autoRequests = s.autoRequests := rfl
@[simp] theorem State.advanceRev_publishAtOnce (s : State) : (s.advanceRev).publishAtOnce = s.publishAtOnce := rfl
@[simp] theorem State.advanceRev_autoOrder (s : State) : (s.advanceRev).autoOrder = s.autoOrder := rfl
@[simp] theorem State.advanceRev_runs (s : State) : (s.advanceRev).runs = s.runs := rfl
@[simp] theorem State.advanceRev_ff (s : State) : (s.advanceRev).ff = s.ff := rfl
@[simp] theorem State.advanceRev_exclusions (s : State) : (s.advanceRev).exclusions = s.exclusions := rfl
@[simp] theorem State.advanceRev_perms (s : State) : (s.advanceRev).perms = s.perms := rfl
@[simp] theorem State.advanceRev_bench (s : State) : (s.advanceRev).bench = s.bench := rfl
@[simp] theorem State.advanceRev_startup (s : State) : (s.advanceRev).startup = s.startup := rfl
@[simp] theorem State.advanceRev_pending (s : State) : (s.advanceRev).pending = s.pending := rfl

/-! ### importMatch -/

@[simp] theorem State.importMatch_map (s : State) (h : Head) : (s.importMatch h).map = s.map := rfl
@[simp] theorem State.importMatch_profiles (s : State) (h : Head) :
    (s.importMatch h).profiles =
      s.profiles.modify h fun p => { p with importFault := false } := rfl
@[simp] theorem State.importMatch_settings (s : State) (h : Head) : (s.importMatch h).settings = s.settings := rfl
@[simp] theorem State.importMatch_sweep (s : State) (h : Head) : (s.importMatch h).sweep = s.sweep := rfl
@[simp] theorem State.importMatch_capture (s : State) (h : Head) : (s.importMatch h).capture = s.capture := rfl
@[simp] theorem State.importMatch_index (s : State) (h : Head) : (s.importMatch h).index = s.index := rfl
@[simp] theorem State.importMatch_held (s : State) (h : Head) : (s.importMatch h).held = s.held := rfl
@[simp] theorem State.importMatch_publishing (s : State) (h : Head) :
    (s.importMatch h).publishing =
      s.publishing := rfl
@[simp] theorem State.importMatch_autoRequests (s : State) (h : Head) :
    (s.importMatch h).autoRequests =
      s.autoRequests := rfl
@[simp] theorem State.importMatch_publishAtOnce (s : State) (h : Head) :
    (s.importMatch h).publishAtOnce =
      s.publishAtOnce := rfl
@[simp] theorem State.importMatch_autoOrder (s : State) (h : Head) :
    (s.importMatch h).autoOrder =
      s.autoOrder := rfl
@[simp] theorem State.importMatch_runs (s : State) (h : Head) : (s.importMatch h).runs = s.runs := rfl
@[simp] theorem State.importMatch_ff (s : State) (h : Head) : (s.importMatch h).ff = s.ff := rfl
@[simp] theorem State.importMatch_exclusions (s : State) (h : Head) :
    (s.importMatch h).exclusions =
      s.exclusions := rfl
@[simp] theorem State.importMatch_perms (s : State) (h : Head) : (s.importMatch h).perms = s.perms := rfl
@[simp] theorem State.importMatch_bench (s : State) (h : Head) : (s.importMatch h).bench = s.bench := rfl
@[simp] theorem State.importMatch_startup (s : State) (h : Head) : (s.importMatch h).startup = s.startup := rfl
@[simp] theorem State.importMatch_pending (s : State) (h : Head) : (s.importMatch h).pending = s.pending := rfl

/-! ### importFail -/

@[simp] theorem State.importFail_map (s : State) (h : Head) : (s.importFail h).map = s.map := rfl
@[simp] theorem State.importFail_profiles (s : State) (h : Head) :
    (s.importFail h).profiles =
      s.profiles.modify h fun p => { p with importFault := true } := rfl
@[simp] theorem State.importFail_settings (s : State) (h : Head) : (s.importFail h).settings = s.settings := rfl
@[simp] theorem State.importFail_sweep (s : State) (h : Head) : (s.importFail h).sweep = s.sweep := rfl
@[simp] theorem State.importFail_capture (s : State) (h : Head) : (s.importFail h).capture = s.capture := rfl
@[simp] theorem State.importFail_index (s : State) (h : Head) : (s.importFail h).index = s.index := rfl
@[simp] theorem State.importFail_held (s : State) (h : Head) : (s.importFail h).held = s.held := rfl
@[simp] theorem State.importFail_publishing (s : State) (h : Head) :
    (s.importFail h).publishing =
      s.publishing := rfl
@[simp] theorem State.importFail_autoRequests (s : State) (h : Head) :
    (s.importFail h).autoRequests =
      s.autoRequests := rfl
@[simp] theorem State.importFail_publishAtOnce (s : State) (h : Head) :
    (s.importFail h).publishAtOnce =
      s.publishAtOnce := rfl
@[simp] theorem State.importFail_autoOrder (s : State) (h : Head) :
    (s.importFail h).autoOrder =
      s.autoOrder := rfl
@[simp] theorem State.importFail_runs (s : State) (h : Head) : (s.importFail h).runs = s.runs := rfl
@[simp] theorem State.importFail_ff (s : State) (h : Head) : (s.importFail h).ff = s.ff := rfl
@[simp] theorem State.importFail_exclusions (s : State) (h : Head) : (s.importFail h).exclusions = s.exclusions := rfl
@[simp] theorem State.importFail_perms (s : State) (h : Head) : (s.importFail h).perms = s.perms := rfl
@[simp] theorem State.importFail_bench (s : State) (h : Head) :
    (s.importFail h).bench =
      { s.bench with flags := s.bench.flags.add .importMismatch } := rfl
@[simp] theorem State.importFail_startup (s : State) (h : Head) : (s.importFail h).startup = s.startup := rfl
@[simp] theorem State.importFail_pending (s : State) (h : Head) : (s.importFail h).pending = s.pending := rfl

end Sys2Proof.Machine
end

