-- ==== Sys2Proof/Laws/Frames.lean ====
section
/-! SUPPORT. What each shared operation and each command leaves unchanged: one lemma per operation and per field that it does
not write. -/

namespace Sys2Proof.Machine

/-! ### resetPointer -/

@[simp] theorem BenchLink.resetPointer_assembly (b : BenchLink) : b.resetPointer.assembly = b.assembly := rfl
@[simp] theorem BenchLink.resetPointer_returnQueue (b : BenchLink) : b.resetPointer.returnQueue = b.returnQueue := rfl
@[simp] theorem BenchLink.resetPointer_window (b : BenchLink) : b.resetPointer.window = b.window := rfl
@[simp] theorem BenchLink.resetPointer_order (b : BenchLink) : b.resetPointer.order = b.order := rfl
@[simp] theorem BenchLink.resetPointer_stream (b : BenchLink) : b.resetPointer.stream = b.stream := rfl
@[simp] theorem BenchLink.resetPointer_lastOutcome (b : BenchLink) : b.resetPointer.lastOutcome = b.lastOutcome := rfl
@[simp] theorem BenchLink.resetPointer_flags (b : BenchLink) : b.resetPointer.flags = b.flags := rfl
@[simp] theorem BenchLink.resetPointer_enables (b : BenchLink) : b.resetPointer.enables = b.enables := rfl
@[simp] theorem BenchLink.resetPointer_selected (b : BenchLink) : b.resetPointer.selected = b.selected := rfl
@[simp] theorem BenchLink.resetPointer_out (b : BenchLink) : b.resetPointer.out = b.out := rfl
@[simp] theorem BenchLink.resetPointer_pointer (b : BenchLink) : b.resetPointer.pointer = windowStart b.window b.order := rfl

/-! ### Publications, one after another -/

/-- What no publication changes, publications one after another do not change. -/
theorem foldl_publishHead_keeps {α : Type} (f : State → α) (hf : ∀ (s : State) (d : DueHead), f (s.publishHead d) = f s)
    (l : List DueHead) (s : State) : f (l.foldl State.publishHead s) = f s := by
  induction l generalizing s with
  | nil => rfl
  | cons d l ih => exact (ih _).trans (hf s d)

/-! ### pump -/

@[simp] theorem State.pump_map (s : State) : (s.pump).map = s.map := by
  unfold State.pump; dsimp only; (repeat' split) <;> rfl
@[simp] theorem State.pump_profiles (s : State) : (s.pump).profiles = s.profiles := by
  unfold State.pump; dsimp only; (repeat' split) <;> rfl
@[simp] theorem State.pump_publishing (s : State) : (s.pump).publishing = s.publishing := by
  unfold State.pump; dsimp only; (repeat' split) <;> rfl
@[simp] theorem State.pump_settings (s : State) : (s.pump).settings = s.settings := by
  unfold State.pump; dsimp only; (repeat' split) <;> rfl
@[simp] theorem State.pump_sweep (s : State) : (s.pump).sweep = s.sweep := by
  unfold State.pump; dsimp only; (repeat' split) <;> rfl
@[simp] theorem State.pump_capture (s : State) : (s.pump).capture = s.capture := by
  unfold State.pump; dsimp only; (repeat' split) <;> rfl
@[simp] theorem State.pump_index (s : State) : (s.pump).index = s.index := by
  unfold State.pump; dsimp only; (repeat' split) <;> rfl
@[simp] theorem State.pump_held (s : State) : (s.pump).held = s.held := by
  unfold State.pump; dsimp only; (repeat' split) <;> rfl
@[simp] theorem State.pump_autoRequests (s : State) : (s.pump).autoRequests = s.autoRequests := by
  unfold State.pump; dsimp only; (repeat' split) <;> rfl
@[simp] theorem State.pump_ff (s : State) : (s.pump).ff = s.ff := by
  unfold State.pump; dsimp only; (repeat' split) <;> rfl
@[simp] theorem State.pump_exclusions (s : State) : (s.pump).exclusions = s.exclusions := by
  unfold State.pump; dsimp only; (repeat' split) <;> rfl
@[simp] theorem State.pump_perms (s : State) : (s.pump).perms = s.perms := by
  unfold State.pump; dsimp only; (repeat' split) <;> rfl
@[simp] theorem State.pump_startup (s : State) : (s.pump).startup = s.startup := by
  unfold State.pump; dsimp only; (repeat' split) <;> rfl
@[simp] theorem State.pump_publishAtOnce (s : State) : (s.pump).publishAtOnce = s.publishAtOnce := by
  unfold State.pump; dsimp only; (repeat' split) <;> rfl
@[simp] theorem State.pump_autoOrder (s : State) : (s.pump).autoOrder = s.autoOrder := by
  unfold State.pump; dsimp only; (repeat' split) <;> rfl
@[simp] theorem State.pump_pending (s : State) : (s.pump).pending = s.pending := by
  unfold State.pump; dsimp only; (repeat' split) <;> rfl
@[simp] theorem State.pump_bench_assembly (s : State) : (s.pump).bench.assembly = s.bench.assembly := by
  unfold State.pump; dsimp only; (repeat' split) <;> rfl
@[simp] theorem State.pump_bench_window (s : State) : (s.pump).bench.window = s.bench.window := by
  unfold State.pump; dsimp only; (repeat' split) <;> rfl
@[simp] theorem State.pump_bench_order (s : State) : (s.pump).bench.order = s.bench.order := by
  unfold State.pump; dsimp only; (repeat' split) <;> rfl
@[simp] theorem State.pump_bench_pointer (s : State) : (s.pump).bench.pointer = s.bench.pointer := by
  unfold State.pump; dsimp only; (repeat' split) <;> rfl
@[simp] theorem State.pump_bench_lastOutcome (s : State) : (s.pump).bench.lastOutcome = s.bench.lastOutcome := by
  unfold State.pump; dsimp only; (repeat' split) <;> rfl
@[simp] theorem State.pump_bench_flags (s : State) : (s.pump).bench.flags = s.bench.flags := by
  unfold State.pump; dsimp only; (repeat' split) <;> rfl
@[simp] theorem State.pump_bench_enables (s : State) : (s.pump).bench.enables = s.bench.enables := by
  unfold State.pump; dsimp only; (repeat' split) <;> rfl
@[simp] theorem State.pump_bench_selected (s : State) : (s.pump).bench.selected = s.bench.selected := by
  unfold State.pump; dsimp only; (repeat' split) <;> rfl
@[simp] theorem State.pump_bench_out (s : State) : (s.pump).bench.out = s.bench.out := by
  unfold State.pump; dsimp only; (repeat' split) <;> rfl
@[simp] theorem State.pump_runs_queue (s : State) : (s.pump).runs.queue = s.runs.queue := by
  unfold State.pump; dsimp only; (repeat' split) <;> rfl
@[simp] theorem State.pump_runs_active (s : State) : (s.pump).runs.active = s.runs.active := by
  unfold State.pump; dsimp only; (repeat' split) <;> rfl
@[simp] theorem State.pump_runs_serial (s : State) : (s.pump).runs.serial = s.runs.serial := by
  unfold State.pump; dsimp only; (repeat' split) <;> rfl

/-! ### startStream -/

@[simp] theorem State.startStream_map (s : State) (kind : StreamKind) (words : List Word) : (s.startStream kind words).map = s.map := by
  unfold State.startStream; simp
@[simp] theorem State.startStream_profiles (s : State) (kind : StreamKind) (words : List Word) : (s.startStream kind words).profiles = s.profiles := by
  unfold State.startStream; simp
@[simp] theorem State.startStream_publishing (s : State) (kind : StreamKind) (words : List Word) : (s.startStream kind words).publishing = s.publishing := by
  unfold State.startStream; simp
@[simp] theorem State.startStream_settings (s : State) (kind : StreamKind) (words : List Word) : (s.startStream kind words).settings = s.settings := by
  unfold State.startStream; simp
@[simp] theorem State.startStream_sweep (s : State) (kind : StreamKind) (words : List Word) : (s.startStream kind words).sweep = s.sweep := by
  unfold State.startStream; simp
@[simp] theorem State.startStream_capture (s : State) (kind : StreamKind) (words : List Word) : (s.startStream kind words).capture = s.capture := by
  unfold State.startStream; simp
@[simp] theorem State.startStream_index (s : State) (kind : StreamKind) (words : List Word) : (s.startStream kind words).index = s.index := by
  unfold State.startStream; simp
@[simp] theorem State.startStream_held (s : State) (kind : StreamKind) (words : List Word) : (s.startStream kind words).held = s.held := by
  unfold State.startStream; simp
@[simp] theorem State.startStream_autoRequests (s : State) (kind : StreamKind) (words : List Word) : (s.startStream kind words).autoRequests = s.autoRequests := by
  unfold State.startStream; simp
@[simp] theorem State.startStream_ff (s : State) (kind : StreamKind) (words : List Word) : (s.startStream kind words).ff = s.ff := by
  unfold State.startStream; simp
@[simp] theorem State.startStream_exclusions (s : State) (kind : StreamKind) (words : List Word) : (s.startStream kind words).exclusions = s.exclusions := by
  unfold State.startStream; simp
@[simp] theorem State.startStream_perms (s : State) (kind : StreamKind) (words : List Word) : (s.startStream kind words).perms = s.perms := by
  unfold State.startStream; simp
@[simp] theorem State.startStream_startup (s : State) (kind : StreamKind) (words : List Word) : (s.startStream kind words).startup = s.startup := by
  unfold State.startStream; simp
@[simp] theorem State.startStream_publishAtOnce (s : State) (kind : StreamKind) (words : List Word) : (s.startStream kind words).publishAtOnce = s.publishAtOnce := by
  unfold State.startStream; simp
@[simp] theorem State.startStream_autoOrder (s : State) (kind : StreamKind) (words : List Word) : (s.startStream kind words).autoOrder = s.autoOrder := by
  unfold State.startStream; simp
@[simp] theorem State.startStream_pending (s : State) (kind : StreamKind) (words : List Word) : (s.startStream kind words).pending = s.pending := by
  unfold State.startStream; simp
@[simp] theorem State.startStream_bench_assembly (s : State) (kind : StreamKind) (words : List Word) : (s.startStream kind words).bench.assembly = s.bench.assembly := by
  unfold State.startStream; simp
@[simp] theorem State.startStream_bench_window (s : State) (kind : StreamKind) (words : List Word) : (s.startStream kind words).bench.window = s.bench.window := by
  unfold State.startStream; simp
@[simp] theorem State.startStream_bench_order (s : State) (kind : StreamKind) (words : List Word) : (s.startStream kind words).bench.order = s.bench.order := by
  unfold State.startStream; simp
@[simp] theorem State.startStream_bench_pointer (s : State) (kind : StreamKind) (words : List Word) : (s.startStream kind words).bench.pointer = s.bench.pointer := by
  unfold State.startStream; simp
@[simp] theorem State.startStream_bench_lastOutcome (s : State) (kind : StreamKind) (words : List Word) : (s.startStream kind words).bench.lastOutcome = s.bench.lastOutcome := by
  unfold State.startStream; simp
@[simp] theorem State.startStream_bench_flags (s : State) (kind : StreamKind) (words : List Word) : (s.startStream kind words).bench.flags = s.bench.flags := by
  unfold State.startStream; simp
@[simp] theorem State.startStream_bench_enables (s : State) (kind : StreamKind) (words : List Word) : (s.startStream kind words).bench.enables = s.bench.enables := by
  unfold State.startStream; simp
@[simp] theorem State.startStream_bench_selected (s : State) (kind : StreamKind) (words : List Word) : (s.startStream kind words).bench.selected = s.bench.selected := by
  unfold State.startStream; simp
@[simp] theorem State.startStream_bench_out (s : State) (kind : StreamKind) (words : List Word) : (s.startStream kind words).bench.out = s.bench.out := by
  unfold State.startStream; simp
@[simp] theorem State.startStream_runs_queue (s : State) (kind : StreamKind) (words : List Word) : (s.startStream kind words).runs.queue = s.runs.queue := by
  unfold State.startStream; simp
@[simp] theorem State.startStream_runs_active (s : State) (kind : StreamKind) (words : List Word) : (s.startStream kind words).runs.active = s.runs.active := by
  unfold State.startStream; simp
@[simp] theorem State.startStream_runs_serial (s : State) (kind : StreamKind) (words : List Word) : (s.startStream kind words).runs.serial = s.runs.serial := by
  unfold State.startStream; simp

/-! ### readStreamItem -/

@[simp] theorem State.readStreamItem_map (s : State) (left : Option Nat) (crc : Option (BitVec 32)) : (s.readStreamItem left crc).map = s.map := by
  unfold State.readStreamItem; dsimp only; (repeat' split) <;> simp
@[simp] theorem State.readStreamItem_profiles (s : State) (left : Option Nat) (crc : Option (BitVec 32)) : (s.readStreamItem left crc).profiles = s.profiles := by
  unfold State.readStreamItem; dsimp only; (repeat' split) <;> simp
@[simp] theorem State.readStreamItem_publishing (s : State) (left : Option Nat) (crc : Option (BitVec 32)) : (s.readStreamItem left crc).publishing = s.publishing := by
  unfold State.readStreamItem; dsimp only; (repeat' split) <;> simp
@[simp] theorem State.readStreamItem_settings (s : State) (left : Option Nat) (crc : Option (BitVec 32)) : (s.readStreamItem left crc).settings = s.settings := by
  unfold State.readStreamItem; dsimp only; (repeat' split) <;> simp
@[simp] theorem State.readStreamItem_sweep (s : State) (left : Option Nat) (crc : Option (BitVec 32)) : (s.readStreamItem left crc).sweep = s.sweep := by
  unfold State.readStreamItem; dsimp only; (repeat' split) <;> simp
@[simp] theorem State.readStreamItem_capture (s : State) (left : Option Nat) (crc : Option (BitVec 32)) : (s.readStreamItem left crc).capture = s.capture := by
  unfold State.readStreamItem; dsimp only; (repeat' split) <;> simp
@[simp] theorem State.readStreamItem_index (s : State) (left : Option Nat) (crc : Option (BitVec 32)) : (s.readStreamItem left crc).index = s.index := by
  unfold State.readStreamItem; dsimp only; (repeat' split) <;> simp
@[simp] theorem State.readStreamItem_held (s : State) (left : Option Nat) (crc : Option (BitVec 32)) : (s.readStreamItem left crc).held = s.held := by
  unfold State.readStreamItem; dsimp only; (repeat' split) <;> simp
@[simp] theorem State.readStreamItem_autoRequests (s : State) (left : Option Nat) (crc : Option (BitVec 32)) : (s.readStreamItem left crc).autoRequests = s.autoRequests := by
  unfold State.readStreamItem; dsimp only; (repeat' split) <;> simp
@[simp] theorem State.readStreamItem_ff (s : State) (left : Option Nat) (crc : Option (BitVec 32)) : (s.readStreamItem left crc).ff = s.ff := by
  unfold State.readStreamItem; dsimp only; (repeat' split) <;> simp
@[simp] theorem State.readStreamItem_exclusions (s : State) (left : Option Nat) (crc : Option (BitVec 32)) : (s.readStreamItem left crc).exclusions = s.exclusions := by
  unfold State.readStreamItem; dsimp only; (repeat' split) <;> simp
@[simp] theorem State.readStreamItem_perms (s : State) (left : Option Nat) (crc : Option (BitVec 32)) : (s.readStreamItem left crc).perms = s.perms := by
  unfold State.readStreamItem; dsimp only; (repeat' split) <;> simp
@[simp] theorem State.readStreamItem_startup (s : State) (left : Option Nat) (crc : Option (BitVec 32)) : (s.readStreamItem left crc).startup = s.startup := by
  unfold State.readStreamItem; dsimp only; (repeat' split) <;> simp
@[simp] theorem State.readStreamItem_publishAtOnce (s : State) (left : Option Nat) (crc : Option (BitVec 32)) : (s.readStreamItem left crc).publishAtOnce = s.publishAtOnce := by
  unfold State.readStreamItem; dsimp only; (repeat' split) <;> simp
@[simp] theorem State.readStreamItem_autoOrder (s : State) (left : Option Nat) (crc : Option (BitVec 32)) : (s.readStreamItem left crc).autoOrder = s.autoOrder := by
  unfold State.readStreamItem; dsimp only; (repeat' split) <;> simp
@[simp] theorem State.readStreamItem_pending (s : State) (left : Option Nat) (crc : Option (BitVec 32)) : (s.readStreamItem left crc).pending = s.pending := by
  unfold State.readStreamItem; dsimp only; (repeat' split) <;> simp
@[simp] theorem State.readStreamItem_bench_assembly (s : State) (left : Option Nat) (crc : Option (BitVec 32)) : (s.readStreamItem left crc).bench.assembly = s.bench.assembly := by
  unfold State.readStreamItem; dsimp only; (repeat' split) <;> simp
@[simp] theorem State.readStreamItem_bench_window (s : State) (left : Option Nat) (crc : Option (BitVec 32)) : (s.readStreamItem left crc).bench.window = s.bench.window := by
  unfold State.readStreamItem; dsimp only; (repeat' split) <;> simp
@[simp] theorem State.readStreamItem_bench_order (s : State) (left : Option Nat) (crc : Option (BitVec 32)) : (s.readStreamItem left crc).bench.order = s.bench.order := by
  unfold State.readStreamItem; dsimp only; (repeat' split) <;> simp
@[simp] theorem State.readStreamItem_bench_lastOutcome (s : State) (left : Option Nat) (crc : Option (BitVec 32)) : (s.readStreamItem left crc).bench.lastOutcome = s.bench.lastOutcome := by
  unfold State.readStreamItem; dsimp only; (repeat' split) <;> simp
@[simp] theorem State.readStreamItem_bench_flags (s : State) (left : Option Nat) (crc : Option (BitVec 32)) : (s.readStreamItem left crc).bench.flags = s.bench.flags := by
  unfold State.readStreamItem; dsimp only; (repeat' split) <;> simp
@[simp] theorem State.readStreamItem_bench_enables (s : State) (left : Option Nat) (crc : Option (BitVec 32)) : (s.readStreamItem left crc).bench.enables = s.bench.enables := by
  unfold State.readStreamItem; dsimp only; (repeat' split) <;> simp
@[simp] theorem State.readStreamItem_bench_selected (s : State) (left : Option Nat) (crc : Option (BitVec 32)) : (s.readStreamItem left crc).bench.selected = s.bench.selected := by
  unfold State.readStreamItem; dsimp only; (repeat' split) <;> simp
@[simp] theorem State.readStreamItem_bench_out (s : State) (left : Option Nat) (crc : Option (BitVec 32)) : (s.readStreamItem left crc).bench.out = s.bench.out := by
  unfold State.readStreamItem; dsimp only; (repeat' split) <;> simp
@[simp] theorem State.readStreamItem_runs_queue (s : State) (left : Option Nat) (crc : Option (BitVec 32)) : (s.readStreamItem left crc).runs.queue = s.runs.queue := by
  unfold State.readStreamItem; dsimp only; (repeat' split) <;> simp
@[simp] theorem State.readStreamItem_runs_active (s : State) (left : Option Nat) (crc : Option (BitVec 32)) : (s.readStreamItem left crc).runs.active = s.runs.active := by
  unfold State.readStreamItem; dsimp only; (repeat' split) <;> simp
@[simp] theorem State.readStreamItem_runs_serial (s : State) (left : Option Nat) (crc : Option (BitVec 32)) : (s.readStreamItem left crc).runs.serial = s.runs.serial := by
  unfold State.readStreamItem; dsimp only; (repeat' split) <;> simp

/-! ### completeStreamRead -/

@[simp] theorem State.completeStreamRead_map (s : State) : (s.completeStreamRead).map = s.map := by
  unfold State.completeStreamRead; (repeat' split) <;> simp
@[simp] theorem State.completeStreamRead_profiles (s : State) : (s.completeStreamRead).profiles = s.profiles := by
  unfold State.completeStreamRead; (repeat' split) <;> simp
@[simp] theorem State.completeStreamRead_publishing (s : State) : (s.completeStreamRead).publishing = s.publishing := by
  unfold State.completeStreamRead; (repeat' split) <;> simp
@[simp] theorem State.completeStreamRead_settings (s : State) : (s.completeStreamRead).settings = s.settings := by
  unfold State.completeStreamRead; (repeat' split) <;> simp
@[simp] theorem State.completeStreamRead_sweep (s : State) : (s.completeStreamRead).sweep = s.sweep := by
  unfold State.completeStreamRead; (repeat' split) <;> simp
@[simp] theorem State.completeStreamRead_capture (s : State) : (s.completeStreamRead).capture = s.capture := by
  unfold State.completeStreamRead; (repeat' split) <;> simp
@[simp] theorem State.completeStreamRead_index (s : State) : (s.completeStreamRead).index = s.index := by
  unfold State.completeStreamRead; (repeat' split) <;> simp
@[simp] theorem State.completeStreamRead_held (s : State) : (s.completeStreamRead).held = s.held := by
  unfold State.completeStreamRead; (repeat' split) <;> simp
@[simp] theorem State.completeStreamRead_autoRequests (s : State) : (s.completeStreamRead).autoRequests = s.autoRequests := by
  unfold State.completeStreamRead; (repeat' split) <;> simp
@[simp] theorem State.completeStreamRead_ff (s : State) : (s.completeStreamRead).ff = s.ff := by
  unfold State.completeStreamRead; (repeat' split) <;> simp
@[simp] theorem State.completeStreamRead_exclusions (s : State) : (s.completeStreamRead).exclusions = s.exclusions := by
  unfold State.completeStreamRead; (repeat' split) <;> simp
@[simp] theorem State.completeStreamRead_perms (s : State) : (s.completeStreamRead).perms = s.perms := by
  unfold State.completeStreamRead; (repeat' split) <;> simp
@[simp] theorem State.completeStreamRead_startup (s : State) : (s.completeStreamRead).startup = s.startup := by
  unfold State.completeStreamRead; (repeat' split) <;> simp
@[simp] theorem State.completeStreamRead_publishAtOnce (s : State) : (s.completeStreamRead).publishAtOnce = s.publishAtOnce := by
  unfold State.completeStreamRead; (repeat' split) <;> simp
@[simp] theorem State.completeStreamRead_autoOrder (s : State) : (s.completeStreamRead).autoOrder = s.autoOrder := by
  unfold State.completeStreamRead; (repeat' split) <;> simp
@[simp] theorem State.completeStreamRead_pending (s : State) : (s.completeStreamRead).pending = s.pending := by
  unfold State.completeStreamRead; (repeat' split) <;> simp
@[simp] theorem State.completeStreamRead_bench_assembly (s : State) : (s.completeStreamRead).bench.assembly = s.bench.assembly := by
  unfold State.completeStreamRead; (repeat' split) <;> simp
@[simp] theorem State.completeStreamRead_bench_window (s : State) : (s.completeStreamRead).bench.window = s.bench.window := by
  unfold State.completeStreamRead; (repeat' split) <;> simp
@[simp] theorem State.completeStreamRead_bench_order (s : State) : (s.completeStreamRead).bench.order = s.bench.order := by
  unfold State.completeStreamRead; (repeat' split) <;> simp
@[simp] theorem State.completeStreamRead_bench_lastOutcome (s : State) : (s.completeStreamRead).bench.lastOutcome = s.bench.lastOutcome := by
  unfold State.completeStreamRead; (repeat' split) <;> simp
@[simp] theorem State.completeStreamRead_bench_flags (s : State) : (s.completeStreamRead).bench.flags = s.bench.flags := by
  unfold State.completeStreamRead; (repeat' split) <;> simp
@[simp] theorem State.completeStreamRead_bench_enables (s : State) : (s.completeStreamRead).bench.enables = s.bench.enables := by
  unfold State.completeStreamRead; (repeat' split) <;> simp
@[simp] theorem State.completeStreamRead_bench_selected (s : State) : (s.completeStreamRead).bench.selected = s.bench.selected := by
  unfold State.completeStreamRead; (repeat' split) <;> simp
@[simp] theorem State.completeStreamRead_bench_out (s : State) : (s.completeStreamRead).bench.out = s.bench.out := by
  unfold State.completeStreamRead; (repeat' split) <;> simp
@[simp] theorem State.completeStreamRead_runs_queue (s : State) : (s.completeStreamRead).runs.queue = s.runs.queue := by
  unfold State.completeStreamRead; (repeat' split) <;> simp
@[simp] theorem State.completeStreamRead_runs_active (s : State) : (s.completeStreamRead).runs.active = s.runs.active := by
  unfold State.completeStreamRead; (repeat' split) <;> simp
@[simp] theorem State.completeStreamRead_runs_serial (s : State) : (s.completeStreamRead).runs.serial = s.runs.serial := by
  unfold State.completeStreamRead; (repeat' split) <;> simp

/-! ### grantStreamRead -/

@[simp] theorem State.grantStreamRead_map (s : State) : (s.grantStreamRead).map = s.map := by
  unfold State.grantStreamRead; (repeat' split) <;> simp
@[simp] theorem State.grantStreamRead_profiles (s : State) : (s.grantStreamRead).profiles = s.profiles := by
  unfold State.grantStreamRead; (repeat' split) <;> simp
@[simp] theorem State.grantStreamRead_publishing (s : State) : (s.grantStreamRead).publishing = s.publishing := by
  unfold State.grantStreamRead; (repeat' split) <;> simp
@[simp] theorem State.grantStreamRead_settings (s : State) : (s.grantStreamRead).settings = s.settings := by
  unfold State.grantStreamRead; (repeat' split) <;> simp
@[simp] theorem State.grantStreamRead_sweep (s : State) : (s.grantStreamRead).sweep = s.sweep := by
  unfold State.grantStreamRead; (repeat' split) <;> simp
@[simp] theorem State.grantStreamRead_capture (s : State) : (s.grantStreamRead).capture = s.capture := by
  unfold State.grantStreamRead; (repeat' split) <;> simp
@[simp] theorem State.grantStreamRead_index (s : State) : (s.grantStreamRead).index = s.index := by
  unfold State.grantStreamRead; (repeat' split) <;> simp
@[simp] theorem State.grantStreamRead_held (s : State) : (s.grantStreamRead).held = s.held := by
  unfold State.grantStreamRead; (repeat' split) <;> simp
@[simp] theorem State.grantStreamRead_autoRequests (s : State) : (s.grantStreamRead).autoRequests = s.autoRequests := by
  unfold State.grantStreamRead; (repeat' split) <;> simp
@[simp] theorem State.grantStreamRead_ff (s : State) : (s.grantStreamRead).ff = s.ff := by
  unfold State.grantStreamRead; (repeat' split) <;> simp
@[simp] theorem State.grantStreamRead_exclusions (s : State) : (s.grantStreamRead).exclusions = s.exclusions := by
  unfold State.grantStreamRead; (repeat' split) <;> simp
@[simp] theorem State.grantStreamRead_perms (s : State) : (s.grantStreamRead).perms = s.perms := by
  unfold State.grantStreamRead; (repeat' split) <;> simp
@[simp] theorem State.grantStreamRead_startup (s : State) : (s.grantStreamRead).startup = s.startup := by
  unfold State.grantStreamRead; (repeat' split) <;> simp
@[simp] theorem State.grantStreamRead_publishAtOnce (s : State) : (s.grantStreamRead).publishAtOnce = s.publishAtOnce := by
  unfold State.grantStreamRead; (repeat' split) <;> simp
@[simp] theorem State.grantStreamRead_autoOrder (s : State) : (s.grantStreamRead).autoOrder = s.autoOrder := by
  unfold State.grantStreamRead; (repeat' split) <;> simp
@[simp] theorem State.grantStreamRead_pending (s : State) : (s.grantStreamRead).pending = s.pending := by
  unfold State.grantStreamRead; (repeat' split) <;> simp
@[simp] theorem State.grantStreamRead_bench_assembly (s : State) : (s.grantStreamRead).bench.assembly = s.bench.assembly := by
  unfold State.grantStreamRead; (repeat' split) <;> simp
@[simp] theorem State.grantStreamRead_bench_window (s : State) : (s.grantStreamRead).bench.window = s.bench.window := by
  unfold State.grantStreamRead; (repeat' split) <;> simp
@[simp] theorem State.grantStreamRead_bench_order (s : State) : (s.grantStreamRead).bench.order = s.bench.order := by
  unfold State.grantStreamRead; (repeat' split) <;> simp
@[simp] theorem State.grantStreamRead_bench_lastOutcome (s : State) : (s.grantStreamRead).bench.lastOutcome = s.bench.lastOutcome := by
  unfold State.grantStreamRead; (repeat' split) <;> simp
@[simp] theorem State.grantStreamRead_bench_flags (s : State) : (s.grantStreamRead).bench.flags = s.bench.flags := by
  unfold State.grantStreamRead; (repeat' split) <;> simp
@[simp] theorem State.grantStreamRead_bench_enables (s : State) : (s.grantStreamRead).bench.enables = s.bench.enables := by
  unfold State.grantStreamRead; (repeat' split) <;> simp
@[simp] theorem State.grantStreamRead_bench_selected (s : State) : (s.grantStreamRead).bench.selected = s.bench.selected := by
  unfold State.grantStreamRead; (repeat' split) <;> simp
@[simp] theorem State.grantStreamRead_bench_out (s : State) : (s.grantStreamRead).bench.out = s.bench.out := by
  unfold State.grantStreamRead; (repeat' split) <;> simp
@[simp] theorem State.grantStreamRead_runs_queue (s : State) : (s.grantStreamRead).runs.queue = s.runs.queue := by
  unfold State.grantStreamRead; (repeat' split) <;> simp
@[simp] theorem State.grantStreamRead_runs_active (s : State) : (s.grantStreamRead).runs.active = s.runs.active := by
  unfold State.grantStreamRead; (repeat' split) <;> simp
@[simp] theorem State.grantStreamRead_runs_serial (s : State) : (s.grantStreamRead).runs.serial = s.runs.serial := by
  unfold State.grantStreamRead; (repeat' split) <;> simp

/-! ### finishStage3 -/

@[simp] theorem State.finishStage3_map (s : State) (r : Record) (e : Int) : (s.finishStage3 r e).map = s.map := by
  unfold State.finishStage3; simp
@[simp] theorem State.finishStage3_publishing (s : State) (r : Record) (e : Int) : (s.finishStage3 r e).publishing = s.publishing := by
  unfold State.finishStage3; simp
@[simp] theorem State.finishStage3_settings (s : State) (r : Record) (e : Int) : (s.finishStage3 r e).settings = s.settings := by
  unfold State.finishStage3; simp
@[simp] theorem State.finishStage3_sweep (s : State) (r : Record) (e : Int) : (s.finishStage3 r e).sweep = s.sweep := by
  unfold State.finishStage3; simp
@[simp] theorem State.finishStage3_capture (s : State) (r : Record) (e : Int) : (s.finishStage3 r e).capture = s.capture := by
  unfold State.finishStage3; simp
@[simp] theorem State.finishStage3_index (s : State) (r : Record) (e : Int) : (s.finishStage3 r e).index = s.index := by
  unfold State.finishStage3; simp
@[simp] theorem State.finishStage3_autoRequests (s : State) (r : Record) (e : Int) : (s.finishStage3 r e).autoRequests = s.autoRequests := by
  unfold State.finishStage3; simp
@[simp] theorem State.finishStage3_runs (s : State) (r : Record) (e : Int) : (s.finishStage3 r e).runs = s.runs := by
  unfold State.finishStage3; simp
@[simp] theorem State.finishStage3_ff (s : State) (r : Record) (e : Int) : (s.finishStage3 r e).ff = s.ff := by
  unfold State.finishStage3; simp
@[simp] theorem State.finishStage3_exclusions (s : State) (r : Record) (e : Int) : (s.finishStage3 r e).exclusions = s.exclusions := by
  unfold State.finishStage3; simp
@[simp] theorem State.finishStage3_perms (s : State) (r : Record) (e : Int) : (s.finishStage3 r e).perms = s.perms := by
  unfold State.finishStage3; simp
@[simp] theorem State.finishStage3_bench (s : State) (r : Record) (e : Int) : (s.finishStage3 r e).bench = s.bench := by
  unfold State.finishStage3; simp
@[simp] theorem State.finishStage3_startup (s : State) (r : Record) (e : Int) : (s.finishStage3 r e).startup = s.startup := by
  unfold State.finishStage3; simp
@[simp] theorem State.finishStage3_publishAtOnce (s : State) (r : Record) (e : Int) : (s.finishStage3 r e).publishAtOnce = s.publishAtOnce := by
  unfold State.finishStage3; simp
@[simp] theorem State.finishStage3_autoOrder (s : State) (r : Record) (e : Int) : (s.finishStage3 r e).autoOrder = s.autoOrder := by
  unfold State.finishStage3; simp
@[simp] theorem State.finishStage3_pending (s : State) (r : Record) (e : Int) : (s.finishStage3 r e).pending = s.pending := by
  unfold State.finishStage3; simp

/-! ### processRecord -/

@[simp] theorem State.processRecord_map (s : State) (r : Record) : (s.processRecord r).map = s.map := by
  unfold State.processRecord; (repeat' split) <;> simp
@[simp] theorem State.processRecord_publishing (s : State) (r : Record) : (s.processRecord r).publishing = s.publishing := by
  unfold State.processRecord; (repeat' split) <;> simp
@[simp] theorem State.processRecord_settings (s : State) (r : Record) : (s.processRecord r).settings = s.settings := by
  unfold State.processRecord; (repeat' split) <;> simp
@[simp] theorem State.processRecord_sweep (s : State) (r : Record) : (s.processRecord r).sweep = s.sweep := by
  unfold State.processRecord; (repeat' split) <;> simp
@[simp] theorem State.processRecord_capture (s : State) (r : Record) : (s.processRecord r).capture = s.capture := by
  unfold State.processRecord; (repeat' split) <;> simp
@[simp] theorem State.processRecord_index (s : State) (r : Record) : (s.processRecord r).index = s.index := by
  unfold State.processRecord; (repeat' split) <;> simp
@[simp] theorem State.processRecord_autoRequests (s : State) (r : Record) : (s.processRecord r).autoRequests = s.autoRequests := by
  unfold State.processRecord; (repeat' split) <;> simp
@[simp] theorem State.processRecord_ff (s : State) (r : Record) : (s.processRecord r).ff = s.ff := by
  unfold State.processRecord; (repeat' split) <;> simp
@[simp] theorem State.processRecord_exclusions (s : State) (r : Record) : (s.processRecord r).exclusions = s.exclusions := by
  unfold State.processRecord; (repeat' split) <;> simp
@[simp] theorem State.processRecord_perms (s : State) (r : Record) : (s.processRecord r).perms = s.perms := by
  unfold State.processRecord; (repeat' split) <;> simp
@[simp] theorem State.processRecord_bench (s : State) (r : Record) : (s.processRecord r).bench = s.bench := by
  unfold State.processRecord; (repeat' split) <;> simp
@[simp] theorem State.processRecord_startup (s : State) (r : Record) : (s.processRecord r).startup = s.startup := by
  unfold State.processRecord; (repeat' split) <;> simp
@[simp] theorem State.processRecord_publishAtOnce (s : State) (r : Record) : (s.processRecord r).publishAtOnce = s.publishAtOnce := by
  unfold State.processRecord; (repeat' split) <;> simp
@[simp] theorem State.processRecord_autoOrder (s : State) (r : Record) : (s.processRecord r).autoOrder = s.autoOrder := by
  unfold State.processRecord; (repeat' split) <;> simp
@[simp] theorem State.processRecord_pending (s : State) (r : Record) : (s.processRecord r).pending = s.pending := by
  unfold State.processRecord; (repeat' split) <;> simp
@[simp] theorem State.processRecord_runs_queue (s : State) (r : Record) : (s.processRecord r).runs.queue = s.runs.queue := by
  unfold State.processRecord; (repeat' split) <;> simp
@[simp] theorem State.processRecord_runs_results (s : State) (r : Record) : (s.processRecord r).runs.results = s.runs.results := by
  unfold State.processRecord; (repeat' split) <;> simp
@[simp] theorem State.processRecord_runs_serial (s : State) (r : Record) : (s.processRecord r).runs.serial = s.runs.serial := by
  unfold State.processRecord; (repeat' split) <;> simp

/-! ### takeRecord -/

@[simp] theorem State.takeRecord_map (s : State) : (s.takeRecord).map = s.map := by
  unfold State.takeRecord; (repeat' split) <;> simp
@[simp] theorem State.takeRecord_publishing (s : State) : (s.takeRecord).publishing = s.publishing := by
  unfold State.takeRecord; (repeat' split) <;> simp
@[simp] theorem State.takeRecord_settings (s : State) : (s.takeRecord).settings = s.settings := by
  unfold State.takeRecord; (repeat' split) <;> simp
@[simp] theorem State.takeRecord_sweep (s : State) : (s.takeRecord).sweep = s.sweep := by
  unfold State.takeRecord; (repeat' split) <;> simp
@[simp] theorem State.takeRecord_index (s : State) : (s.takeRecord).index = s.index := by
  unfold State.takeRecord; (repeat' split) <;> simp
@[simp] theorem State.takeRecord_autoRequests (s : State) : (s.takeRecord).autoRequests = s.autoRequests := by
  unfold State.takeRecord; (repeat' split) <;> simp
@[simp] theorem State.takeRecord_ff (s : State) : (s.takeRecord).ff = s.ff := by
  unfold State.takeRecord; (repeat' split) <;> simp
@[simp] theorem State.takeRecord_exclusions (s : State) : (s.takeRecord).exclusions = s.exclusions := by
  unfold State.takeRecord; (repeat' split) <;> simp
@[simp] theorem State.takeRecord_perms (s : State) : (s.takeRecord).perms = s.perms := by
  unfold State.takeRecord; (repeat' split) <;> simp
@[simp] theorem State.takeRecord_bench (s : State) : (s.takeRecord).bench = s.bench := by
  unfold State.takeRecord; (repeat' split) <;> simp
@[simp] theorem State.takeRecord_startup (s : State) : (s.takeRecord).startup = s.startup := by
  unfold State.takeRecord; (repeat' split) <;> simp
@[simp] theorem State.takeRecord_publishAtOnce (s : State) : (s.takeRecord).publishAtOnce = s.publishAtOnce := by
  unfold State.takeRecord; (repeat' split) <;> simp
@[simp] theorem State.takeRecord_autoOrder (s : State) : (s.takeRecord).autoOrder = s.autoOrder := by
  unfold State.takeRecord; (repeat' split) <;> simp
@[simp] theorem State.takeRecord_pending (s : State) : (s.takeRecord).pending = s.pending := by
  unfold State.takeRecord; (repeat' split) <;> simp
@[simp] theorem State.takeRecord_runs_queue (s : State) : (s.takeRecord).runs.queue = s.runs.queue := by
  unfold State.takeRecord; (repeat' split) <;> simp
@[simp] theorem State.takeRecord_runs_results (s : State) : (s.takeRecord).runs.results = s.runs.results := by
  unfold State.takeRecord; (repeat' split) <;> simp
@[simp] theorem State.takeRecord_runs_serial (s : State) : (s.takeRecord).runs.serial = s.runs.serial := by
  unfold State.takeRecord; (repeat' split) <;> simp

/-! ### discardOutlier -/

@[simp] theorem State.discardOutlier_profiles (s : State) (ctx : RunCtx) (r : HeldRecord) : (s.discardOutlier ctx r).profiles = s.profiles := by
  unfold State.discardOutlier; (repeat' split) <;> simp
@[simp] theorem State.discardOutlier_publishing (s : State) (ctx : RunCtx) (r : HeldRecord) : (s.discardOutlier ctx r).publishing = s.publishing := by
  unfold State.discardOutlier; (repeat' split) <;> simp
@[simp] theorem State.discardOutlier_settings (s : State) (ctx : RunCtx) (r : HeldRecord) : (s.discardOutlier ctx r).settings = s.settings := by
  unfold State.discardOutlier; (repeat' split) <;> simp
@[simp] theorem State.discardOutlier_sweep (s : State) (ctx : RunCtx) (r : HeldRecord) : (s.discardOutlier ctx r).sweep = s.sweep := by
  unfold State.discardOutlier; (repeat' split) <;> simp
@[simp] theorem State.discardOutlier_capture (s : State) (ctx : RunCtx) (r : HeldRecord) : (s.discardOutlier ctx r).capture = s.capture := by
  unfold State.discardOutlier; (repeat' split) <;> simp
@[simp] theorem State.discardOutlier_index (s : State) (ctx : RunCtx) (r : HeldRecord) : (s.discardOutlier ctx r).index = s.index := by
  unfold State.discardOutlier; (repeat' split) <;> simp
@[simp] theorem State.discardOutlier_held (s : State) (ctx : RunCtx) (r : HeldRecord) : (s.discardOutlier ctx r).held = s.held := by
  unfold State.discardOutlier; (repeat' split) <;> simp
@[simp] theorem State.discardOutlier_runs (s : State) (ctx : RunCtx) (r : HeldRecord) : (s.discardOutlier ctx r).runs = s.runs := by
  unfold State.discardOutlier; (repeat' split) <;> simp
@[simp] theorem State.discardOutlier_ff (s : State) (ctx : RunCtx) (r : HeldRecord) : (s.discardOutlier ctx r).ff = s.ff := by
  unfold State.discardOutlier; (repeat' split) <;> simp
@[simp] theorem State.discardOutlier_exclusions (s : State) (ctx : RunCtx) (r : HeldRecord) : (s.discardOutlier ctx r).exclusions = s.exclusions := by
  unfold State.discardOutlier; (repeat' split) <;> simp
@[simp] theorem State.discardOutlier_perms (s : State) (ctx : RunCtx) (r : HeldRecord) : (s.discardOutlier ctx r).perms = s.perms := by
  unfold State.discardOutlier; (repeat' split) <;> simp
@[simp] theorem State.discardOutlier_bench (s : State) (ctx : RunCtx) (r : HeldRecord) : (s.discardOutlier ctx r).bench = s.bench := by
  unfold State.discardOutlier; (repeat' split) <;> simp
@[simp] theorem State.discardOutlier_startup (s : State) (ctx : RunCtx) (r : HeldRecord) : (s.discardOutlier ctx r).startup = s.startup := by
  unfold State.discardOutlier; (repeat' split) <;> simp
@[simp] theorem State.discardOutlier_publishAtOnce (s : State) (ctx : RunCtx) (r : HeldRecord) : (s.discardOutlier ctx r).publishAtOnce = s.publishAtOnce := by
  unfold State.discardOutlier; (repeat' split) <;> simp
@[simp] theorem State.discardOutlier_autoOrder (s : State) (ctx : RunCtx) (r : HeldRecord) : (s.discardOutlier ctx r).autoOrder = s.autoOrder := by
  unfold State.discardOutlier; (repeat' split) <;> simp
@[simp] theorem State.discardOutlier_pending (s : State) (ctx : RunCtx) (r : HeldRecord) : (s.discardOutlier ctx r).pending = s.pending := by
  unfold State.discardOutlier; (repeat' split) <;> simp

/-! ### admitSample -/

@[simp] theorem State.admitSample_profiles (s : State) (ctx : RunCtx) (r : HeldRecord) : (s.admitSample ctx r).profiles = s.profiles := by
  unfold State.admitSample; dsimp only; (repeat' split) <;> simp
@[simp] theorem State.admitSample_publishing (s : State) (ctx : RunCtx) (r : HeldRecord) : (s.admitSample ctx r).publishing = s.publishing := by
  unfold State.admitSample; dsimp only; (repeat' split) <;> simp
@[simp] theorem State.admitSample_settings (s : State) (ctx : RunCtx) (r : HeldRecord) : (s.admitSample ctx r).settings = s.settings := by
  unfold State.admitSample; dsimp only; (repeat' split) <;> simp
@[simp] theorem State.admitSample_sweep (s : State) (ctx : RunCtx) (r : HeldRecord) : (s.admitSample ctx r).sweep = s.sweep := by
  unfold State.admitSample; dsimp only; (repeat' split) <;> simp
@[simp] theorem State.admitSample_capture (s : State) (ctx : RunCtx) (r : HeldRecord) : (s.admitSample ctx r).capture = s.capture := by
  unfold State.admitSample; dsimp only; (repeat' split) <;> simp
@[simp] theorem State.admitSample_index (s : State) (ctx : RunCtx) (r : HeldRecord) : (s.admitSample ctx r).index = s.index := by
  unfold State.admitSample; dsimp only; (repeat' split) <;> simp
@[simp] theorem State.admitSample_held (s : State) (ctx : RunCtx) (r : HeldRecord) : (s.admitSample ctx r).held = s.held := by
  unfold State.admitSample; dsimp only; (repeat' split) <;> simp
@[simp] theorem State.admitSample_autoRequests (s : State) (ctx : RunCtx) (r : HeldRecord) : (s.admitSample ctx r).autoRequests = s.autoRequests := by
  unfold State.admitSample; dsimp only; (repeat' split) <;> simp
@[simp] theorem State.admitSample_ff (s : State) (ctx : RunCtx) (r : HeldRecord) : (s.admitSample ctx r).ff = s.ff := by
  unfold State.admitSample; dsimp only; (repeat' split) <;> simp
@[simp] theorem State.admitSample_exclusions (s : State) (ctx : RunCtx) (r : HeldRecord) : (s.admitSample ctx r).exclusions = s.exclusions := by
  unfold State.admitSample; dsimp only; (repeat' split) <;> simp
@[simp] theorem State.admitSample_perms (s : State) (ctx : RunCtx) (r : HeldRecord) : (s.admitSample ctx r).perms = s.perms := by
  unfold State.admitSample; dsimp only; (repeat' split) <;> simp
@[simp] theorem State.admitSample_bench (s : State) (ctx : RunCtx) (r : HeldRecord) : (s.admitSample ctx r).bench = s.bench := by
  unfold State.admitSample; dsimp only; (repeat' split) <;> simp
@[simp] theorem State.admitSample_startup (s : State) (ctx : RunCtx) (r : HeldRecord) : (s.admitSample ctx r).startup = s.startup := by
  unfold State.admitSample; dsimp only; (repeat' split) <;> simp
@[simp] theorem State.admitSample_publishAtOnce (s : State) (ctx : RunCtx) (r : HeldRecord) : (s.admitSample ctx r).publishAtOnce = s.publishAtOnce := by
  unfold State.admitSample; dsimp only; (repeat' split) <;> simp
@[simp] theorem State.admitSample_autoOrder (s : State) (ctx : RunCtx) (r : HeldRecord) : (s.admitSample ctx r).autoOrder = s.autoOrder := by
  unfold State.admitSample; dsimp only; (repeat' split) <;> simp
@[simp] theorem State.admitSample_pending (s : State) (ctx : RunCtx) (r : HeldRecord) : (s.admitSample ctx r).pending = s.pending := by
  unfold State.admitSample; dsimp only; (repeat' split) <;> simp
@[simp] theorem State.admitSample_runs_queue (s : State) (ctx : RunCtx) (r : HeldRecord) : (s.admitSample ctx r).runs.queue = s.runs.queue := by
  unfold State.admitSample; dsimp only; (repeat' split) <;> simp
@[simp] theorem State.admitSample_runs_results (s : State) (ctx : RunCtx) (r : HeldRecord) : (s.admitSample ctx r).runs.results = s.runs.results := by
  unfold State.admitSample; dsimp only; (repeat' split) <;> simp
@[simp] theorem State.admitSample_runs_serial (s : State) (ctx : RunCtx) (r : HeldRecord) : (s.admitSample ctx r).runs.serial = s.runs.serial := by
  unfold State.admitSample; dsimp only; (repeat' split) <;> simp

/-! ### admitGainSample -/

@[simp] theorem State.admitGainSample_map (s : State) (ctx : RunCtx) (r : HeldRecord) : (s.admitGainSample ctx r).map = s.map := by
  unfold State.admitGainSample; simp
@[simp] theorem State.admitGainSample_profiles (s : State) (ctx : RunCtx) (r : HeldRecord) : (s.admitGainSample ctx r).profiles = s.profiles := by
  unfold State.admitGainSample; simp
@[simp] theorem State.admitGainSample_publishing (s : State) (ctx : RunCtx) (r : HeldRecord) : (s.admitGainSample ctx r).publishing = s.publishing := by
  unfold State.admitGainSample; simp
@[simp] theorem State.admitGainSample_settings (s : State) (ctx : RunCtx) (r : HeldRecord) : (s.admitGainSample ctx r).settings = s.settings := by
  unfold State.admitGainSample; simp
@[simp] theorem State.admitGainSample_sweep (s : State) (ctx : RunCtx) (r : HeldRecord) : (s.admitGainSample ctx r).sweep = s.sweep := by
  unfold State.admitGainSample; simp
@[simp] theorem State.admitGainSample_capture (s : State) (ctx : RunCtx) (r : HeldRecord) : (s.admitGainSample ctx r).capture = s.capture := by
  unfold State.admitGainSample; simp
@[simp] theorem State.admitGainSample_index (s : State) (ctx : RunCtx) (r : HeldRecord) : (s.admitGainSample ctx r).index = s.index := by
  unfold State.admitGainSample; simp
@[simp] theorem State.admitGainSample_held (s : State) (ctx : RunCtx) (r : HeldRecord) : (s.admitGainSample ctx r).held = s.held := by
  unfold State.admitGainSample; simp
@[simp] theorem State.admitGainSample_autoRequests (s : State) (ctx : RunCtx) (r : HeldRecord) : (s.admitGainSample ctx r).autoRequests = s.autoRequests := by
  unfold State.admitGainSample; simp
@[simp] theorem State.admitGainSample_ff (s : State) (ctx : RunCtx) (r : HeldRecord) : (s.admitGainSample ctx r).ff = s.ff := by
  unfold State.admitGainSample; simp
@[simp] theorem State.admitGainSample_exclusions (s : State) (ctx : RunCtx) (r : HeldRecord) : (s.admitGainSample ctx r).exclusions = s.exclusions := by
  unfold State.admitGainSample; simp
@[simp] theorem State.admitGainSample_perms (s : State) (ctx : RunCtx) (r : HeldRecord) : (s.admitGainSample ctx r).perms = s.perms := by
  unfold State.admitGainSample; simp
@[simp] theorem State.admitGainSample_bench (s : State) (ctx : RunCtx) (r : HeldRecord) : (s.admitGainSample ctx r).bench = s.bench := by
  unfold State.admitGainSample; simp
@[simp] theorem State.admitGainSample_startup (s : State) (ctx : RunCtx) (r : HeldRecord) : (s.admitGainSample ctx r).startup = s.startup := by
  unfold State.admitGainSample; simp
@[simp] theorem State.admitGainSample_publishAtOnce (s : State) (ctx : RunCtx) (r : HeldRecord) : (s.admitGainSample ctx r).publishAtOnce = s.publishAtOnce := by
  unfold State.admitGainSample; simp
@[simp] theorem State.admitGainSample_autoOrder (s : State) (ctx : RunCtx) (r : HeldRecord) : (s.admitGainSample ctx r).autoOrder = s.autoOrder := by
  unfold State.admitGainSample; simp
@[simp] theorem State.admitGainSample_pending (s : State) (ctx : RunCtx) (r : HeldRecord) : (s.admitGainSample ctx r).pending = s.pending := by
  unfold State.admitGainSample; simp
@[simp] theorem State.admitGainSample_runs_queue (s : State) (ctx : RunCtx) (r : HeldRecord) : (s.admitGainSample ctx r).runs.queue = s.runs.queue := by
  unfold State.admitGainSample; simp
@[simp] theorem State.admitGainSample_runs_results (s : State) (ctx : RunCtx) (r : HeldRecord) : (s.admitGainSample ctx r).runs.results = s.runs.results := by
  unfold State.admitGainSample; simp
@[simp] theorem State.admitGainSample_runs_serial (s : State) (ctx : RunCtx) (r : HeldRecord) : (s.admitGainSample ctx r).runs.serial = s.runs.serial := by
  unfold State.admitGainSample; simp

/-! ### learnSample -/

@[simp] theorem State.learnSample_profiles (s : State) (ctx : RunCtx) (r : HeldRecord) : (s.learnSample ctx r).profiles = s.profiles := by
  unfold State.learnSample; (repeat' split) <;> simp
@[simp] theorem State.learnSample_publishing (s : State) (ctx : RunCtx) (r : HeldRecord) : (s.learnSample ctx r).publishing = s.publishing := by
  unfold State.learnSample; (repeat' split) <;> simp
@[simp] theorem State.learnSample_settings (s : State) (ctx : RunCtx) (r : HeldRecord) : (s.learnSample ctx r).settings = s.settings := by
  unfold State.learnSample; (repeat' split) <;> simp
@[simp] theorem State.learnSample_sweep (s : State) (ctx : RunCtx) (r : HeldRecord) : (s.learnSample ctx r).sweep = s.sweep := by
  unfold State.learnSample; (repeat' split) <;> simp
@[simp] theorem State.learnSample_capture (s : State) (ctx : RunCtx) (r : HeldRecord) : (s.learnSample ctx r).capture = s.capture := by
  unfold State.learnSample; (repeat' split) <;> simp
@[simp] theorem State.learnSample_index (s : State) (ctx : RunCtx) (r : HeldRecord) : (s.learnSample ctx r).index = s.index := by
  unfold State.learnSample; (repeat' split) <;> simp
@[simp] theorem State.learnSample_held (s : State) (ctx : RunCtx) (r : HeldRecord) : (s.learnSample ctx r).held = s.held := by
  unfold State.learnSample; (repeat' split) <;> simp
@[simp] theorem State.learnSample_ff (s : State) (ctx : RunCtx) (r : HeldRecord) : (s.learnSample ctx r).ff = s.ff := by
  unfold State.learnSample; (repeat' split) <;> simp
@[simp] theorem State.learnSample_exclusions (s : State) (ctx : RunCtx) (r : HeldRecord) : (s.learnSample ctx r).exclusions = s.exclusions := by
  unfold State.learnSample; (repeat' split) <;> simp
@[simp] theorem State.learnSample_perms (s : State) (ctx : RunCtx) (r : HeldRecord) : (s.learnSample ctx r).perms = s.perms := by
  unfold State.learnSample; (repeat' split) <;> simp
@[simp] theorem State.learnSample_bench (s : State) (ctx : RunCtx) (r : HeldRecord) : (s.learnSample ctx r).bench = s.bench := by
  unfold State.learnSample; (repeat' split) <;> simp
@[simp] theorem State.learnSample_startup (s : State) (ctx : RunCtx) (r : HeldRecord) : (s.learnSample ctx r).startup = s.startup := by
  unfold State.learnSample; (repeat' split) <;> simp
@[simp] theorem State.learnSample_publishAtOnce (s : State) (ctx : RunCtx) (r : HeldRecord) : (s.learnSample ctx r).publishAtOnce = s.publishAtOnce := by
  unfold State.learnSample; (repeat' split) <;> simp
@[simp] theorem State.learnSample_autoOrder (s : State) (ctx : RunCtx) (r : HeldRecord) : (s.learnSample ctx r).autoOrder = s.autoOrder := by
  unfold State.learnSample; (repeat' split) <;> simp
@[simp] theorem State.learnSample_pending (s : State) (ctx : RunCtx) (r : HeldRecord) : (s.learnSample ctx r).pending = s.pending := by
  unfold State.learnSample; (repeat' split) <;> simp
@[simp] theorem State.learnSample_runs_queue (s : State) (ctx : RunCtx) (r : HeldRecord) : (s.learnSample ctx r).runs.queue = s.runs.queue := by
  unfold State.learnSample; (repeat' split) <;> simp
@[simp] theorem State.learnSample_runs_results (s : State) (ctx : RunCtx) (r : HeldRecord) : (s.learnSample ctx r).runs.results = s.runs.results := by
  unfold State.learnSample; (repeat' split) <;> simp
@[simp] theorem State.learnSample_runs_serial (s : State) (ctx : RunCtx) (r : HeldRecord) : (s.learnSample ctx r).runs.serial = s.runs.serial := by
  unfold State.learnSample; (repeat' split) <;> simp

/-! ### gainSample -/

@[simp] theorem State.gainSample_map (s : State) (ctx : RunCtx) (r : HeldRecord) : (s.gainSample ctx r).map = s.map := by
  unfold State.gainSample; (repeat' split) <;> simp
@[simp] theorem State.gainSample_profiles (s : State) (ctx : RunCtx) (r : HeldRecord) : (s.gainSample ctx r).profiles = s.profiles := by
  unfold State.gainSample; (repeat' split) <;> simp
@[simp] theorem State.gainSample_publishing (s : State) (ctx : RunCtx) (r : HeldRecord) : (s.gainSample ctx r).publishing = s.publishing := by
  unfold State.gainSample; (repeat' split) <;> simp
@[simp] theorem State.gainSample_settings (s : State) (ctx : RunCtx) (r : HeldRecord) : (s.gainSample ctx r).settings = s.settings := by
  unfold State.gainSample; (repeat' split) <;> simp
@[simp] theorem State.gainSample_sweep (s : State) (ctx : RunCtx) (r : HeldRecord) : (s.gainSample ctx r).sweep = s.sweep := by
  unfold State.gainSample; (repeat' split) <;> simp
@[simp] theorem State.gainSample_capture (s : State) (ctx : RunCtx) (r : HeldRecord) : (s.gainSample ctx r).capture = s.capture := by
  unfold State.gainSample; (repeat' split) <;> simp
@[simp] theorem State.gainSample_index (s : State) (ctx : RunCtx) (r : HeldRecord) : (s.gainSample ctx r).index = s.index := by
  unfold State.gainSample; (repeat' split) <;> simp
@[simp] theorem State.gainSample_held (s : State) (ctx : RunCtx) (r : HeldRecord) : (s.gainSample ctx r).held = s.held := by
  unfold State.gainSample; (repeat' split) <;> simp
@[simp] theorem State.gainSample_autoRequests (s : State) (ctx : RunCtx) (r : HeldRecord) : (s.gainSample ctx r).autoRequests = s.autoRequests := by
  unfold State.gainSample; (repeat' split) <;> simp
@[simp] theorem State.gainSample_ff (s : State) (ctx : RunCtx) (r : HeldRecord) : (s.gainSample ctx r).ff = s.ff := by
  unfold State.gainSample; (repeat' split) <;> simp
@[simp] theorem State.gainSample_exclusions (s : State) (ctx : RunCtx) (r : HeldRecord) : (s.gainSample ctx r).exclusions = s.exclusions := by
  unfold State.gainSample; (repeat' split) <;> simp
@[simp] theorem State.gainSample_perms (s : State) (ctx : RunCtx) (r : HeldRecord) : (s.gainSample ctx r).perms = s.perms := by
  unfold State.gainSample; (repeat' split) <;> simp
@[simp] theorem State.gainSample_bench (s : State) (ctx : RunCtx) (r : HeldRecord) : (s.gainSample ctx r).bench = s.bench := by
  unfold State.gainSample; (repeat' split) <;> simp
@[simp] theorem State.gainSample_startup (s : State) (ctx : RunCtx) (r : HeldRecord) : (s.gainSample ctx r).startup = s.startup := by
  unfold State.gainSample; (repeat' split) <;> simp
@[simp] theorem State.gainSample_publishAtOnce (s : State) (ctx : RunCtx) (r : HeldRecord) : (s.gainSample ctx r).publishAtOnce = s.publishAtOnce := by
  unfold State.gainSample; (repeat' split) <;> simp
@[simp] theorem State.gainSample_autoOrder (s : State) (ctx : RunCtx) (r : HeldRecord) : (s.gainSample ctx r).autoOrder = s.autoOrder := by
  unfold State.gainSample; (repeat' split) <;> simp
@[simp] theorem State.gainSample_pending (s : State) (ctx : RunCtx) (r : HeldRecord) : (s.gainSample ctx r).pending = s.pending := by
  unfold State.gainSample; (repeat' split) <;> simp
@[simp] theorem State.gainSample_runs_queue (s : State) (ctx : RunCtx) (r : HeldRecord) : (s.gainSample ctx r).runs.queue = s.runs.queue := by
  unfold State.gainSample; (repeat' split) <;> simp
@[simp] theorem State.gainSample_runs_results (s : State) (ctx : RunCtx) (r : HeldRecord) : (s.gainSample ctx r).runs.results = s.runs.results := by
  unfold State.gainSample; (repeat' split) <;> simp
@[simp] theorem State.gainSample_runs_serial (s : State) (ctx : RunCtx) (r : HeldRecord) : (s.gainSample ctx r).runs.serial = s.runs.serial := by
  unfold State.gainSample; (repeat' split) <;> simp

/-! ### learnOperation -/

@[simp] theorem State.learnOperation_profiles (s : State) (r : HeldRecord) : (s.learnOperation r).profiles = s.profiles := by
  unfold State.learnOperation; (repeat' split) <;> simp
@[simp] theorem State.learnOperation_publishing (s : State) (r : HeldRecord) : (s.learnOperation r).publishing = s.publishing := by
  unfold State.learnOperation; (repeat' split) <;> simp
@[simp] theorem State.learnOperation_settings (s : State) (r : HeldRecord) : (s.learnOperation r).settings = s.settings := by
  unfold State.learnOperation; (repeat' split) <;> simp
@[simp] theorem State.learnOperation_sweep (s : State) (r : HeldRecord) : (s.learnOperation r).sweep = s.sweep := by
  unfold State.learnOperation; (repeat' split) <;> simp
@[simp] theorem State.learnOperation_capture (s : State) (r : HeldRecord) : (s.learnOperation r).capture = s.capture := by
  unfold State.learnOperation; (repeat' split) <;> simp
@[simp] theorem State.learnOperation_index (s : State) (r : HeldRecord) : (s.learnOperation r).index = s.index := by
  unfold State.learnOperation; (repeat' split) <;> simp
@[simp] theorem State.learnOperation_held (s : State) (r : HeldRecord) : (s.learnOperation r).held = s.held := by
  unfold State.learnOperation; (repeat' split) <;> simp
@[simp] theorem State.learnOperation_ff (s : State) (r : HeldRecord) : (s.learnOperation r).ff = s.ff := by
  unfold State.learnOperation; (repeat' split) <;> simp
@[simp] theorem State.learnOperation_exclusions (s : State) (r : HeldRecord) : (s.learnOperation r).exclusions = s.exclusions := by
  unfold State.learnOperation; (repeat' split) <;> simp
@[simp] theorem State.learnOperation_perms (s : State) (r : HeldRecord) : (s.learnOperation r).perms = s.perms := by
  unfold State.learnOperation; (repeat' split) <;> simp
@[simp] theorem State.learnOperation_bench (s : State) (r : HeldRecord) : (s.learnOperation r).bench = s.bench := by
  unfold State.learnOperation; (repeat' split) <;> simp
@[simp] theorem State.learnOperation_startup (s : State) (r : HeldRecord) : (s.learnOperation r).startup = s.startup := by
  unfold State.learnOperation; (repeat' split) <;> simp
@[simp] theorem State.learnOperation_publishAtOnce (s : State) (r : HeldRecord) : (s.learnOperation r).publishAtOnce = s.publishAtOnce := by
  unfold State.learnOperation; (repeat' split) <;> simp
@[simp] theorem State.learnOperation_autoOrder (s : State) (r : HeldRecord) : (s.learnOperation r).autoOrder = s.autoOrder := by
  unfold State.learnOperation; (repeat' split) <;> simp
@[simp] theorem State.learnOperation_pending (s : State) (r : HeldRecord) : (s.learnOperation r).pending = s.pending := by
  unfold State.learnOperation; (repeat' split) <;> simp
@[simp] theorem State.learnOperation_runs_queue (s : State) (r : HeldRecord) : (s.learnOperation r).runs.queue = s.runs.queue := by
  unfold State.learnOperation; (repeat' split) <;> simp
@[simp] theorem State.learnOperation_runs_results (s : State) (r : HeldRecord) : (s.learnOperation r).runs.results = s.runs.results := by
  unfold State.learnOperation; (repeat' split) <;> simp
@[simp] theorem State.learnOperation_runs_serial (s : State) (r : HeldRecord) : (s.learnOperation r).runs.serial = s.runs.serial := by
  unfold State.learnOperation; (repeat' split) <;> simp

/-! ### grantLearning -/

@[simp] theorem State.grantLearning_profiles (s : State) : (s.grantLearning).profiles = s.profiles := by
  unfold State.grantLearning; (repeat' split) <;> simp
@[simp] theorem State.grantLearning_publishing (s : State) : (s.grantLearning).publishing = s.publishing := by
  unfold State.grantLearning; (repeat' split) <;> simp
@[simp] theorem State.grantLearning_settings (s : State) : (s.grantLearning).settings = s.settings := by
  unfold State.grantLearning; (repeat' split) <;> simp
@[simp] theorem State.grantLearning_sweep (s : State) : (s.grantLearning).sweep = s.sweep := by
  unfold State.grantLearning; (repeat' split) <;> simp
@[simp] theorem State.grantLearning_capture (s : State) : (s.grantLearning).capture = s.capture := by
  unfold State.grantLearning; (repeat' split) <;> simp
@[simp] theorem State.grantLearning_index (s : State) : (s.grantLearning).index = s.index := by
  unfold State.grantLearning; (repeat' split) <;> simp
@[simp] theorem State.grantLearning_ff (s : State) : (s.grantLearning).ff = s.ff := by
  unfold State.grantLearning; (repeat' split) <;> simp
@[simp] theorem State.grantLearning_exclusions (s : State) : (s.grantLearning).exclusions = s.exclusions := by
  unfold State.grantLearning; (repeat' split) <;> simp
@[simp] theorem State.grantLearning_perms (s : State) : (s.grantLearning).perms = s.perms := by
  unfold State.grantLearning; (repeat' split) <;> simp
@[simp] theorem State.grantLearning_bench (s : State) : (s.grantLearning).bench = s.bench := by
  unfold State.grantLearning; (repeat' split) <;> simp
@[simp] theorem State.grantLearning_startup (s : State) : (s.grantLearning).startup = s.startup := by
  unfold State.grantLearning; (repeat' split) <;> simp
@[simp] theorem State.grantLearning_publishAtOnce (s : State) : (s.grantLearning).publishAtOnce = s.publishAtOnce := by
  unfold State.grantLearning; (repeat' split) <;> simp
@[simp] theorem State.grantLearning_autoOrder (s : State) : (s.grantLearning).autoOrder = s.autoOrder := by
  unfold State.grantLearning; (repeat' split) <;> simp
@[simp] theorem State.grantLearning_pending (s : State) : (s.grantLearning).pending = s.pending := by
  unfold State.grantLearning; (repeat' split) <;> simp
@[simp] theorem State.grantLearning_runs_queue (s : State) : (s.grantLearning).runs.queue = s.runs.queue := by
  unfold State.grantLearning; (repeat' split) <;> simp
@[simp] theorem State.grantLearning_runs_results (s : State) : (s.grantLearning).runs.results = s.runs.results := by
  unfold State.grantLearning; (repeat' split) <;> simp
@[simp] theorem State.grantLearning_runs_serial (s : State) : (s.grantLearning).runs.serial = s.runs.serial := by
  unfold State.grantLearning; (repeat' split) <;> simp

/-! ### serveRequest -/

@[simp] theorem State.serveRequest_map (s : State) (q : FFRequest) : (s.serveRequest q).map = s.map := by
  unfold State.serveRequest; (repeat' split) <;> simp
@[simp] theorem State.serveRequest_profiles (s : State) (q : FFRequest) : (s.serveRequest q).profiles = s.profiles := by
  unfold State.serveRequest; (repeat' split) <;> simp
@[simp] theorem State.serveRequest_publishing (s : State) (q : FFRequest) : (s.serveRequest q).publishing = s.publishing := by
  unfold State.serveRequest; (repeat' split) <;> simp
@[simp] theorem State.serveRequest_settings (s : State) (q : FFRequest) : (s.serveRequest q).settings = s.settings := by
  unfold State.serveRequest; (repeat' split) <;> simp
@[simp] theorem State.serveRequest_sweep (s : State) (q : FFRequest) : (s.serveRequest q).sweep = s.sweep := by
  unfold State.serveRequest; (repeat' split) <;> simp
@[simp] theorem State.serveRequest_capture (s : State) (q : FFRequest) : (s.serveRequest q).capture = s.capture := by
  unfold State.serveRequest; (repeat' split) <;> simp
@[simp] theorem State.serveRequest_index (s : State) (q : FFRequest) : (s.serveRequest q).index = s.index := by
  unfold State.serveRequest; (repeat' split) <;> simp
@[simp] theorem State.serveRequest_held (s : State) (q : FFRequest) : (s.serveRequest q).held = s.held := by
  unfold State.serveRequest; (repeat' split) <;> simp
@[simp] theorem State.serveRequest_autoRequests (s : State) (q : FFRequest) : (s.serveRequest q).autoRequests = s.autoRequests := by
  unfold State.serveRequest; (repeat' split) <;> simp
@[simp] theorem State.serveRequest_runs (s : State) (q : FFRequest) : (s.serveRequest q).runs = s.runs := by
  unfold State.serveRequest; (repeat' split) <;> simp
@[simp] theorem State.serveRequest_exclusions (s : State) (q : FFRequest) : (s.serveRequest q).exclusions = s.exclusions := by
  unfold State.serveRequest; (repeat' split) <;> simp
@[simp] theorem State.serveRequest_perms (s : State) (q : FFRequest) : (s.serveRequest q).perms = s.perms := by
  unfold State.serveRequest; (repeat' split) <;> simp
@[simp] theorem State.serveRequest_bench (s : State) (q : FFRequest) : (s.serveRequest q).bench = s.bench := by
  unfold State.serveRequest; (repeat' split) <;> simp
@[simp] theorem State.serveRequest_startup (s : State) (q : FFRequest) : (s.serveRequest q).startup = s.startup := by
  unfold State.serveRequest; (repeat' split) <;> simp
@[simp] theorem State.serveRequest_publishAtOnce (s : State) (q : FFRequest) : (s.serveRequest q).publishAtOnce = s.publishAtOnce := by
  unfold State.serveRequest; (repeat' split) <;> simp
@[simp] theorem State.serveRequest_autoOrder (s : State) (q : FFRequest) : (s.serveRequest q).autoOrder = s.autoOrder := by
  unfold State.serveRequest; (repeat' split) <;> simp
@[simp] theorem State.serveRequest_pending (s : State) (q : FFRequest) : (s.serveRequest q).pending = s.pending := by
  unfold State.serveRequest; (repeat' split) <;> simp

/-! ### takeRequest -/

@[simp] theorem State.takeRequest_map (s : State) (w : Word) : (s.takeRequest w).map = s.map := by
  unfold State.takeRequest; dsimp only; (repeat' split) <;> simp
@[simp] theorem State.takeRequest_profiles (s : State) (w : Word) : (s.takeRequest w).profiles = s.profiles := by
  unfold State.takeRequest; dsimp only; (repeat' split) <;> simp
@[simp] theorem State.takeRequest_publishing (s : State) (w : Word) : (s.takeRequest w).publishing = s.publishing := by
  unfold State.takeRequest; dsimp only; (repeat' split) <;> simp
@[simp] theorem State.takeRequest_settings (s : State) (w : Word) : (s.takeRequest w).settings = s.settings := by
  unfold State.takeRequest; dsimp only; (repeat' split) <;> simp
@[simp] theorem State.takeRequest_sweep (s : State) (w : Word) : (s.takeRequest w).sweep = s.sweep := by
  unfold State.takeRequest; dsimp only; (repeat' split) <;> simp
@[simp] theorem State.takeRequest_capture (s : State) (w : Word) : (s.takeRequest w).capture = s.capture := by
  unfold State.takeRequest; dsimp only; (repeat' split) <;> simp
@[simp] theorem State.takeRequest_index (s : State) (w : Word) : (s.takeRequest w).index = s.index := by
  unfold State.takeRequest; dsimp only; (repeat' split) <;> simp
@[simp] theorem State.takeRequest_held (s : State) (w : Word) : (s.takeRequest w).held = s.held := by
  unfold State.takeRequest; dsimp only; (repeat' split) <;> simp
@[simp] theorem State.takeRequest_autoRequests (s : State) (w : Word) : (s.takeRequest w).autoRequests = s.autoRequests := by
  unfold State.takeRequest; dsimp only; (repeat' split) <;> simp
@[simp] theorem State.takeRequest_runs (s : State) (w : Word) : (s.takeRequest w).runs = s.runs := by
  unfold State.takeRequest; dsimp only; (repeat' split) <;> simp
@[simp] theorem State.takeRequest_exclusions (s : State) (w : Word) : (s.takeRequest w).exclusions = s.exclusions := by
  unfold State.takeRequest; dsimp only; (repeat' split) <;> simp
@[simp] theorem State.takeRequest_perms (s : State) (w : Word) : (s.takeRequest w).perms = s.perms := by
  unfold State.takeRequest; dsimp only; (repeat' split) <;> simp
@[simp] theorem State.takeRequest_bench (s : State) (w : Word) : (s.takeRequest w).bench = s.bench := by
  unfold State.takeRequest; dsimp only; (repeat' split) <;> simp
@[simp] theorem State.takeRequest_startup (s : State) (w : Word) : (s.takeRequest w).startup = s.startup := by
  unfold State.takeRequest; dsimp only; (repeat' split) <;> simp
@[simp] theorem State.takeRequest_publishAtOnce (s : State) (w : Word) : (s.takeRequest w).publishAtOnce = s.publishAtOnce := by
  unfold State.takeRequest; dsimp only; (repeat' split) <;> simp
@[simp] theorem State.takeRequest_autoOrder (s : State) (w : Word) : (s.takeRequest w).autoOrder = s.autoOrder := by
  unfold State.takeRequest; dsimp only; (repeat' split) <;> simp
@[simp] theorem State.takeRequest_pending (s : State) (w : Word) : (s.takeRequest w).pending = s.pending := by
  unfold State.takeRequest; dsimp only; (repeat' split) <;> simp

/-! ### formReply -/

@[simp] theorem State.formReply_map (s : State) : (s.formReply).map = s.map := by
  unfold State.formReply; (repeat' split) <;> simp
@[simp] theorem State.formReply_profiles (s : State) : (s.formReply).profiles = s.profiles := by
  unfold State.formReply; (repeat' split) <;> simp
@[simp] theorem State.formReply_publishing (s : State) : (s.formReply).publishing = s.publishing := by
  unfold State.formReply; (repeat' split) <;> simp
@[simp] theorem State.formReply_settings (s : State) : (s.formReply).settings = s.settings := by
  unfold State.formReply; (repeat' split) <;> simp
@[simp] theorem State.formReply_sweep (s : State) : (s.formReply).sweep = s.sweep := by
  unfold State.formReply; (repeat' split) <;> simp
@[simp] theorem State.formReply_capture (s : State) : (s.formReply).capture = s.capture := by
  unfold State.formReply; (repeat' split) <;> simp
@[simp] theorem State.formReply_index (s : State) : (s.formReply).index = s.index := by
  unfold State.formReply; (repeat' split) <;> simp
@[simp] theorem State.formReply_held (s : State) : (s.formReply).held = s.held := by
  unfold State.formReply; (repeat' split) <;> simp
@[simp] theorem State.formReply_autoRequests (s : State) : (s.formReply).autoRequests = s.autoRequests := by
  unfold State.formReply; (repeat' split) <;> simp
@[simp] theorem State.formReply_runs (s : State) : (s.formReply).runs = s.runs := by
  unfold State.formReply; (repeat' split) <;> simp
@[simp] theorem State.formReply_exclusions (s : State) : (s.formReply).exclusions = s.exclusions := by
  unfold State.formReply; (repeat' split) <;> simp
@[simp] theorem State.formReply_perms (s : State) : (s.formReply).perms = s.perms := by
  unfold State.formReply; (repeat' split) <;> simp
@[simp] theorem State.formReply_bench (s : State) : (s.formReply).bench = s.bench := by
  unfold State.formReply; (repeat' split) <;> simp
@[simp] theorem State.formReply_startup (s : State) : (s.formReply).startup = s.startup := by
  unfold State.formReply; (repeat' split) <;> simp
@[simp] theorem State.formReply_publishAtOnce (s : State) : (s.formReply).publishAtOnce = s.publishAtOnce := by
  unfold State.formReply; (repeat' split) <;> simp
@[simp] theorem State.formReply_autoOrder (s : State) : (s.formReply).autoOrder = s.autoOrder := by
  unfold State.formReply; (repeat' split) <;> simp
@[simp] theorem State.formReply_pending (s : State) : (s.formReply).pending = s.pending := by
  unfold State.formReply; (repeat' split) <;> simp

/-! ### replyStrobe -/

@[simp] theorem State.replyStrobe_map (s : State) (otherReady : Bool) : (s.replyStrobe otherReady).map = s.map := by
  unfold State.replyStrobe; (repeat' split) <;> simp
@[simp] theorem State.replyStrobe_profiles (s : State) (otherReady : Bool) : (s.replyStrobe otherReady).profiles = s.profiles := by
  unfold State.replyStrobe; (repeat' split) <;> simp
@[simp] theorem State.replyStrobe_publishing (s : State) (otherReady : Bool) : (s.replyStrobe otherReady).publishing = s.publishing := by
  unfold State.replyStrobe; (repeat' split) <;> simp
@[simp] theorem State.replyStrobe_settings (s : State) (otherReady : Bool) : (s.replyStrobe otherReady).settings = s.settings := by
  unfold State.replyStrobe; (repeat' split) <;> simp
@[simp] theorem State.replyStrobe_sweep (s : State) (otherReady : Bool) : (s.replyStrobe otherReady).sweep = s.sweep := by
  unfold State.replyStrobe; (repeat' split) <;> simp
@[simp] theorem State.replyStrobe_capture (s : State) (otherReady : Bool) : (s.replyStrobe otherReady).capture = s.capture := by
  unfold State.replyStrobe; (repeat' split) <;> simp
@[simp] theorem State.replyStrobe_index (s : State) (otherReady : Bool) : (s.replyStrobe otherReady).index = s.index := by
  unfold State.replyStrobe; (repeat' split) <;> simp
@[simp] theorem State.replyStrobe_held (s : State) (otherReady : Bool) : (s.replyStrobe otherReady).held = s.held := by
  unfold State.replyStrobe; (repeat' split) <;> simp
@[simp] theorem State.replyStrobe_autoRequests (s : State) (otherReady : Bool) : (s.replyStrobe otherReady).autoRequests = s.autoRequests := by
  unfold State.replyStrobe; (repeat' split) <;> simp
@[simp] theorem State.replyStrobe_runs (s : State) (otherReady : Bool) : (s.replyStrobe otherReady).runs = s.runs := by
  unfold State.replyStrobe; (repeat' split) <;> simp
@[simp] theorem State.replyStrobe_exclusions (s : State) (otherReady : Bool) : (s.replyStrobe otherReady).exclusions = s.exclusions := by
  unfold State.replyStrobe; (repeat' split) <;> simp
@[simp] theorem State.replyStrobe_perms (s : State) (otherReady : Bool) : (s.replyStrobe otherReady).perms = s.perms := by
  unfold State.replyStrobe; (repeat' split) <;> simp
@[simp] theorem State.replyStrobe_bench (s : State) (otherReady : Bool) : (s.replyStrobe otherReady).bench = s.bench := by
  unfold State.replyStrobe; (repeat' split) <;> simp
@[simp] theorem State.replyStrobe_startup (s : State) (otherReady : Bool) : (s.replyStrobe otherReady).startup = s.startup := by
  unfold State.replyStrobe; (repeat' split) <;> simp
@[simp] theorem State.replyStrobe_publishAtOnce (s : State) (otherReady : Bool) : (s.replyStrobe otherReady).publishAtOnce = s.publishAtOnce := by
  unfold State.replyStrobe; (repeat' split) <;> simp
@[simp] theorem State.replyStrobe_autoOrder (s : State) (otherReady : Bool) : (s.replyStrobe otherReady).autoOrder = s.autoOrder := by
  unfold State.replyStrobe; (repeat' split) <;> simp
@[simp] theorem State.replyStrobe_pending (s : State) (otherReady : Bool) : (s.replyStrobe otherReady).pending = s.pending := by
  unfold State.replyStrobe; (repeat' split) <;> simp

/-! ### claimsAhead -/

@[simp] theorem State.claimsAhead_profiles (s : State) : (s.claimsAhead).profiles = s.profiles := by
  unfold State.claimsAhead; simp
@[simp] theorem State.claimsAhead_publishing (s : State) : (s.claimsAhead).publishing = s.publishing := by
  unfold State.claimsAhead; simp
@[simp] theorem State.claimsAhead_settings (s : State) : (s.claimsAhead).settings = s.settings := by
  unfold State.claimsAhead; simp
@[simp] theorem State.claimsAhead_sweep (s : State) : (s.claimsAhead).sweep = s.sweep := by
  unfold State.claimsAhead; simp
@[simp] theorem State.claimsAhead_capture (s : State) : (s.claimsAhead).capture = s.capture := by
  unfold State.claimsAhead; simp
@[simp] theorem State.claimsAhead_index (s : State) : (s.claimsAhead).index = s.index := by
  unfold State.claimsAhead; simp
@[simp] theorem State.claimsAhead_exclusions (s : State) : (s.claimsAhead).exclusions = s.exclusions := by
  unfold State.claimsAhead; simp
@[simp] theorem State.claimsAhead_perms (s : State) : (s.claimsAhead).perms = s.perms := by
  unfold State.claimsAhead; simp
@[simp] theorem State.claimsAhead_bench (s : State) : (s.claimsAhead).bench = s.bench := by
  unfold State.claimsAhead; simp
@[simp] theorem State.claimsAhead_startup (s : State) : (s.claimsAhead).startup = s.startup := by
  unfold State.claimsAhead; simp
@[simp] theorem State.claimsAhead_publishAtOnce (s : State) : (s.claimsAhead).publishAtOnce = s.publishAtOnce := by
  unfold State.claimsAhead; simp
@[simp] theorem State.claimsAhead_autoOrder (s : State) : (s.claimsAhead).autoOrder = s.autoOrder := by
  unfold State.claimsAhead; simp
@[simp] theorem State.claimsAhead_pending (s : State) : (s.claimsAhead).pending = s.pending := by
  unfold State.claimsAhead; simp
@[simp] theorem State.claimsAhead_runs_queue (s : State) : (s.claimsAhead).runs.queue = s.runs.queue := by
  unfold State.claimsAhead; simp
@[simp] theorem State.claimsAhead_runs_results (s : State) : (s.claimsAhead).runs.results = s.runs.results := by
  unfold State.claimsAhead; simp
@[simp] theorem State.claimsAhead_runs_serial (s : State) : (s.claimsAhead).runs.serial = s.runs.serial := by
  unfold State.claimsAhead; simp

/-! ### takeClaimedRead -/

@[simp] theorem State.takeClaimedRead_profiles (s : State) : (s.takeClaimedRead).profiles = s.profiles := by
  unfold State.takeClaimedRead; (repeat' split) <;> simp
@[simp] theorem State.takeClaimedRead_publishing (s : State) : (s.takeClaimedRead).publishing = s.publishing := by
  unfold State.takeClaimedRead; (repeat' split) <;> simp
@[simp] theorem State.takeClaimedRead_settings (s : State) : (s.takeClaimedRead).settings = s.settings := by
  unfold State.takeClaimedRead; (repeat' split) <;> simp
@[simp] theorem State.takeClaimedRead_sweep (s : State) : (s.takeClaimedRead).sweep = s.sweep := by
  unfold State.takeClaimedRead; (repeat' split) <;> simp
@[simp] theorem State.takeClaimedRead_capture (s : State) : (s.takeClaimedRead).capture = s.capture := by
  unfold State.takeClaimedRead; (repeat' split) <;> simp
@[simp] theorem State.takeClaimedRead_index (s : State) : (s.takeClaimedRead).index = s.index := by
  unfold State.takeClaimedRead; (repeat' split) <;> simp
@[simp] theorem State.takeClaimedRead_exclusions (s : State) : (s.takeClaimedRead).exclusions = s.exclusions := by
  unfold State.takeClaimedRead; (repeat' split) <;> simp
@[simp] theorem State.takeClaimedRead_perms (s : State) : (s.takeClaimedRead).perms = s.perms := by
  unfold State.takeClaimedRead; (repeat' split) <;> simp
@[simp] theorem State.takeClaimedRead_startup (s : State) : (s.takeClaimedRead).startup = s.startup := by
  unfold State.takeClaimedRead; (repeat' split) <;> simp
@[simp] theorem State.takeClaimedRead_publishAtOnce (s : State) : (s.takeClaimedRead).publishAtOnce = s.publishAtOnce := by
  unfold State.takeClaimedRead; (repeat' split) <;> simp
@[simp] theorem State.takeClaimedRead_autoOrder (s : State) : (s.takeClaimedRead).autoOrder = s.autoOrder := by
  unfold State.takeClaimedRead; (repeat' split) <;> simp
@[simp] theorem State.takeClaimedRead_pending (s : State) : (s.takeClaimedRead).pending = s.pending := by
  unfold State.takeClaimedRead; (repeat' split) <;> simp
@[simp] theorem State.takeClaimedRead_bench_assembly (s : State) : (s.takeClaimedRead).bench.assembly = s.bench.assembly := by
  unfold State.takeClaimedRead; (repeat' split) <;> simp
@[simp] theorem State.takeClaimedRead_bench_window (s : State) : (s.takeClaimedRead).bench.window = s.bench.window := by
  unfold State.takeClaimedRead; (repeat' split) <;> simp
@[simp] theorem State.takeClaimedRead_bench_order (s : State) : (s.takeClaimedRead).bench.order = s.bench.order := by
  unfold State.takeClaimedRead; (repeat' split) <;> simp
@[simp] theorem State.takeClaimedRead_bench_lastOutcome (s : State) : (s.takeClaimedRead).bench.lastOutcome = s.bench.lastOutcome := by
  unfold State.takeClaimedRead; (repeat' split) <;> simp
@[simp] theorem State.takeClaimedRead_bench_flags (s : State) : (s.takeClaimedRead).bench.flags = s.bench.flags := by
  unfold State.takeClaimedRead; (repeat' split) <;> simp
@[simp] theorem State.takeClaimedRead_bench_enables (s : State) : (s.takeClaimedRead).bench.enables = s.bench.enables := by
  unfold State.takeClaimedRead; (repeat' split) <;> simp
@[simp] theorem State.takeClaimedRead_bench_selected (s : State) : (s.takeClaimedRead).bench.selected = s.bench.selected := by
  unfold State.takeClaimedRead; (repeat' split) <;> simp
@[simp] theorem State.takeClaimedRead_bench_out (s : State) : (s.takeClaimedRead).bench.out = s.bench.out := by
  unfold State.takeClaimedRead; (repeat' split) <;> simp
@[simp] theorem State.takeClaimedRead_runs_queue (s : State) : (s.takeClaimedRead).runs.queue = s.runs.queue := by
  unfold State.takeClaimedRead; (repeat' split) <;> simp
@[simp] theorem State.takeClaimedRead_runs_serial (s : State) : (s.takeClaimedRead).runs.serial = s.runs.serial := by
  unfold State.takeClaimedRead; (repeat' split) <;> simp

/-! ### endData -/

@[simp] theorem State.endData_map (s : State) (imp : Option Import) : (s.endData imp).map = s.map := by
  unfold State.endData; (repeat' split) <;> simp
@[simp] theorem State.endData_publishing (s : State) (imp : Option Import) : (s.endData imp).publishing = s.publishing := by
  unfold State.endData; (repeat' split) <;> simp
@[simp] theorem State.endData_settings (s : State) (imp : Option Import) : (s.endData imp).settings = s.settings := by
  unfold State.endData; (repeat' split) <;> simp
@[simp] theorem State.endData_sweep (s : State) (imp : Option Import) : (s.endData imp).sweep = s.sweep := by
  unfold State.endData; (repeat' split) <;> simp
@[simp] theorem State.endData_capture (s : State) (imp : Option Import) : (s.endData imp).capture = s.capture := by
  unfold State.endData; (repeat' split) <;> simp
@[simp] theorem State.endData_index (s : State) (imp : Option Import) : (s.endData imp).index = s.index := by
  unfold State.endData; (repeat' split) <;> simp
@[simp] theorem State.endData_held (s : State) (imp : Option Import) : (s.endData imp).held = s.held := by
  unfold State.endData; (repeat' split) <;> simp
@[simp] theorem State.endData_autoRequests (s : State) (imp : Option Import) : (s.endData imp).autoRequests = s.autoRequests := by
  unfold State.endData; (repeat' split) <;> simp
@[simp] theorem State.endData_runs (s : State) (imp : Option Import) : (s.endData imp).runs = s.runs := by
  unfold State.endData; (repeat' split) <;> simp
@[simp] theorem State.endData_ff (s : State) (imp : Option Import) : (s.endData imp).ff = s.ff := by
  unfold State.endData; (repeat' split) <;> simp
@[simp] theorem State.endData_exclusions (s : State) (imp : Option Import) : (s.endData imp).exclusions = s.exclusions := by
  unfold State.endData; (repeat' split) <;> simp
@[simp] theorem State.endData_perms (s : State) (imp : Option Import) : (s.endData imp).perms = s.perms := by
  unfold State.endData; (repeat' split) <;> simp
@[simp] theorem State.endData_startup (s : State) (imp : Option Import) : (s.endData imp).startup = s.startup := by
  unfold State.endData; (repeat' split) <;> simp
@[simp] theorem State.endData_publishAtOnce (s : State) (imp : Option Import) : (s.endData imp).publishAtOnce = s.publishAtOnce := by
  unfold State.endData; (repeat' split) <;> simp
@[simp] theorem State.endData_autoOrder (s : State) (imp : Option Import) : (s.endData imp).autoOrder = s.autoOrder := by
  unfold State.endData; (repeat' split) <;> simp
@[simp] theorem State.endData_pending (s : State) (imp : Option Import) : (s.endData imp).pending = s.pending := by
  unfold State.endData; (repeat' split) <;> simp
@[simp] theorem State.endData_bench_assembly (s : State) (imp : Option Import) : (s.endData imp).bench.assembly = s.bench.assembly := by
  unfold State.endData; (repeat' split) <;> simp
@[simp] theorem State.endData_bench_returnQueue (s : State) (imp : Option Import) : (s.endData imp).bench.returnQueue = s.bench.returnQueue := by
  unfold State.endData; (repeat' split) <;> simp
@[simp] theorem State.endData_bench_window (s : State) (imp : Option Import) : (s.endData imp).bench.window = s.bench.window := by
  unfold State.endData; (repeat' split) <;> simp
@[simp] theorem State.endData_bench_order (s : State) (imp : Option Import) : (s.endData imp).bench.order = s.bench.order := by
  unfold State.endData; (repeat' split) <;> simp
@[simp] theorem State.endData_bench_pointer (s : State) (imp : Option Import) : (s.endData imp).bench.pointer = s.bench.pointer := by
  unfold State.endData; (repeat' split) <;> simp
@[simp] theorem State.endData_bench_stream (s : State) (imp : Option Import) : (s.endData imp).bench.stream = s.bench.stream := by
  unfold State.endData; (repeat' split) <;> simp
@[simp] theorem State.endData_bench_lastOutcome (s : State) (imp : Option Import) : (s.endData imp).bench.lastOutcome = s.bench.lastOutcome := by
  unfold State.endData; (repeat' split) <;> simp
@[simp] theorem State.endData_bench_enables (s : State) (imp : Option Import) : (s.endData imp).bench.enables = s.bench.enables := by
  unfold State.endData; (repeat' split) <;> simp
@[simp] theorem State.endData_bench_selected (s : State) (imp : Option Import) : (s.endData imp).bench.selected = s.bench.selected := by
  unfold State.endData; (repeat' split) <;> simp
@[simp] theorem State.endData_bench_out (s : State) (imp : Option Import) : (s.endData imp).bench.out = s.bench.out := by
  unfold State.endData; (repeat' split) <;> simp

/-! ### endAssembly -/

@[simp] theorem State.endAssembly_map (s : State) : (s.endAssembly).map = s.map := by
  unfold State.endAssembly; (repeat' split) <;> simp
@[simp] theorem State.endAssembly_publishing (s : State) : (s.endAssembly).publishing = s.publishing := by
  unfold State.endAssembly; (repeat' split) <;> simp
@[simp] theorem State.endAssembly_settings (s : State) : (s.endAssembly).settings = s.settings := by
  unfold State.endAssembly; (repeat' split) <;> simp
@[simp] theorem State.endAssembly_sweep (s : State) : (s.endAssembly).sweep = s.sweep := by
  unfold State.endAssembly; (repeat' split) <;> simp
@[simp] theorem State.endAssembly_capture (s : State) : (s.endAssembly).capture = s.capture := by
  unfold State.endAssembly; (repeat' split) <;> simp
@[simp] theorem State.endAssembly_index (s : State) : (s.endAssembly).index = s.index := by
  unfold State.endAssembly; (repeat' split) <;> simp
@[simp] theorem State.endAssembly_held (s : State) : (s.endAssembly).held = s.held := by
  unfold State.endAssembly; (repeat' split) <;> simp
@[simp] theorem State.endAssembly_autoRequests (s : State) : (s.endAssembly).autoRequests = s.autoRequests := by
  unfold State.endAssembly; (repeat' split) <;> simp
@[simp] theorem State.endAssembly_runs (s : State) : (s.endAssembly).runs = s.runs := by
  unfold State.endAssembly; (repeat' split) <;> simp
@[simp] theorem State.endAssembly_ff (s : State) : (s.endAssembly).ff = s.ff := by
  unfold State.endAssembly; (repeat' split) <;> simp
@[simp] theorem State.endAssembly_exclusions (s : State) : (s.endAssembly).exclusions = s.exclusions := by
  unfold State.endAssembly; (repeat' split) <;> simp
@[simp] theorem State.endAssembly_perms (s : State) : (s.endAssembly).perms = s.perms := by
  unfold State.endAssembly; (repeat' split) <;> simp
@[simp] theorem State.endAssembly_startup (s : State) : (s.endAssembly).startup = s.startup := by
  unfold State.endAssembly; (repeat' split) <;> simp
@[simp] theorem State.endAssembly_publishAtOnce (s : State) : (s.endAssembly).publishAtOnce = s.publishAtOnce := by
  unfold State.endAssembly; (repeat' split) <;> simp
@[simp] theorem State.endAssembly_autoOrder (s : State) : (s.endAssembly).autoOrder = s.autoOrder := by
  unfold State.endAssembly; (repeat' split) <;> simp
@[simp] theorem State.endAssembly_pending (s : State) : (s.endAssembly).pending = s.pending := by
  unfold State.endAssembly; (repeat' split) <;> simp
@[simp] theorem State.endAssembly_bench_returnQueue (s : State) : (s.endAssembly).bench.returnQueue = s.bench.returnQueue := by
  unfold State.endAssembly; (repeat' split) <;> simp
@[simp] theorem State.endAssembly_bench_window (s : State) : (s.endAssembly).bench.window = s.bench.window := by
  unfold State.endAssembly; (repeat' split) <;> simp
@[simp] theorem State.endAssembly_bench_order (s : State) : (s.endAssembly).bench.order = s.bench.order := by
  unfold State.endAssembly; (repeat' split) <;> simp
@[simp] theorem State.endAssembly_bench_pointer (s : State) : (s.endAssembly).bench.pointer = s.bench.pointer := by
  unfold State.endAssembly; (repeat' split) <;> simp
@[simp] theorem State.endAssembly_bench_stream (s : State) : (s.endAssembly).bench.stream = s.bench.stream := by
  unfold State.endAssembly; (repeat' split) <;> simp
@[simp] theorem State.endAssembly_bench_enables (s : State) : (s.endAssembly).bench.enables = s.bench.enables := by
  unfold State.endAssembly; (repeat' split) <;> simp
@[simp] theorem State.endAssembly_bench_selected (s : State) : (s.endAssembly).bench.selected = s.bench.selected := by
  unfold State.endAssembly; (repeat' split) <;> simp
@[simp] theorem State.endAssembly_bench_out (s : State) : (s.endAssembly).bench.out = s.bench.out := by
  unfold State.endAssembly; (repeat' split) <;> simp

/-! ### commandArrives -/

@[simp] theorem State.commandArrives_publishing (s : State) : (s.commandArrives).publishing = s.publishing := by
  unfold State.commandArrives; simp
@[simp] theorem State.commandArrives_settings (s : State) : (s.commandArrives).settings = s.settings := by
  unfold State.commandArrives; simp
@[simp] theorem State.commandArrives_sweep (s : State) : (s.commandArrives).sweep = s.sweep := by
  unfold State.commandArrives; simp
@[simp] theorem State.commandArrives_capture (s : State) : (s.commandArrives).capture = s.capture := by
  unfold State.commandArrives; simp
@[simp] theorem State.commandArrives_index (s : State) : (s.commandArrives).index = s.index := by
  unfold State.commandArrives; simp
@[simp] theorem State.commandArrives_exclusions (s : State) : (s.commandArrives).exclusions = s.exclusions := by
  unfold State.commandArrives; simp
@[simp] theorem State.commandArrives_perms (s : State) : (s.commandArrives).perms = s.perms := by
  unfold State.commandArrives; simp
@[simp] theorem State.commandArrives_startup (s : State) : (s.commandArrives).startup = s.startup := by
  unfold State.commandArrives; simp
@[simp] theorem State.commandArrives_publishAtOnce (s : State) : (s.commandArrives).publishAtOnce = s.publishAtOnce := by
  unfold State.commandArrives; simp
@[simp] theorem State.commandArrives_autoOrder (s : State) : (s.commandArrives).autoOrder = s.autoOrder := by
  unfold State.commandArrives; simp
@[simp] theorem State.commandArrives_pending (s : State) : (s.commandArrives).pending = s.pending := by
  unfold State.commandArrives; simp
@[simp] theorem State.commandArrives_bench_window (s : State) : (s.commandArrives).bench.window = s.bench.window := by
  unfold State.commandArrives; simp
@[simp] theorem State.commandArrives_bench_order (s : State) : (s.commandArrives).bench.order = s.bench.order := by
  unfold State.commandArrives; simp
@[simp] theorem State.commandArrives_bench_enables (s : State) : (s.commandArrives).bench.enables = s.bench.enables := by
  unfold State.commandArrives; simp
@[simp] theorem State.commandArrives_bench_selected (s : State) : (s.commandArrives).bench.selected = s.bench.selected := by
  unfold State.commandArrives; simp
@[simp] theorem State.commandArrives_bench_out (s : State) : (s.commandArrives).bench.out = s.bench.out := by
  unfold State.commandArrives; simp
@[simp] theorem State.commandArrives_runs_queue (s : State) : (s.commandArrives).runs.queue = s.runs.queue := by
  unfold State.commandArrives; simp
@[simp] theorem State.commandArrives_runs_serial (s : State) : (s.commandArrives).runs.serial = s.runs.serial := by
  unfold State.commandArrives; simp

/-! ### benchWrite -/

@[simp] theorem State.benchWrite_profiles (s : State) (h : Head) (w : Nat) (f : Cell → Cell) : (s.benchWrite h w f).profiles = s.profiles := by
  unfold State.benchWrite; (repeat' split) <;> simp
@[simp] theorem State.benchWrite_publishing (s : State) (h : Head) (w : Nat) (f : Cell → Cell) : (s.benchWrite h w f).publishing = s.publishing := by
  unfold State.benchWrite; (repeat' split) <;> simp
@[simp] theorem State.benchWrite_settings (s : State) (h : Head) (w : Nat) (f : Cell → Cell) : (s.benchWrite h w f).settings = s.settings := by
  unfold State.benchWrite; (repeat' split) <;> simp
@[simp] theorem State.benchWrite_sweep (s : State) (h : Head) (w : Nat) (f : Cell → Cell) : (s.benchWrite h w f).sweep = s.sweep := by
  unfold State.benchWrite; (repeat' split) <;> simp
@[simp] theorem State.benchWrite_capture (s : State) (h : Head) (w : Nat) (f : Cell → Cell) : (s.benchWrite h w f).capture = s.capture := by
  unfold State.benchWrite; (repeat' split) <;> simp
@[simp] theorem State.benchWrite_index (s : State) (h : Head) (w : Nat) (f : Cell → Cell) : (s.benchWrite h w f).index = s.index := by
  unfold State.benchWrite; (repeat' split) <;> simp
@[simp] theorem State.benchWrite_held (s : State) (h : Head) (w : Nat) (f : Cell → Cell) : (s.benchWrite h w f).held = s.held := by
  unfold State.benchWrite; (repeat' split) <;> simp
@[simp] theorem State.benchWrite_autoRequests (s : State) (h : Head) (w : Nat) (f : Cell → Cell) : (s.benchWrite h w f).autoRequests = s.autoRequests := by
  unfold State.benchWrite; (repeat' split) <;> simp
@[simp] theorem State.benchWrite_runs (s : State) (h : Head) (w : Nat) (f : Cell → Cell) : (s.benchWrite h w f).runs = s.runs := by
  unfold State.benchWrite; (repeat' split) <;> simp
@[simp] theorem State.benchWrite_ff (s : State) (h : Head) (w : Nat) (f : Cell → Cell) : (s.benchWrite h w f).ff = s.ff := by
  unfold State.benchWrite; (repeat' split) <;> simp
@[simp] theorem State.benchWrite_exclusions (s : State) (h : Head) (w : Nat) (f : Cell → Cell) : (s.benchWrite h w f).exclusions = s.exclusions := by
  unfold State.benchWrite; (repeat' split) <;> simp
@[simp] theorem State.benchWrite_perms (s : State) (h : Head) (w : Nat) (f : Cell → Cell) : (s.benchWrite h w f).perms = s.perms := by
  unfold State.benchWrite; (repeat' split) <;> simp
@[simp] theorem State.benchWrite_bench (s : State) (h : Head) (w : Nat) (f : Cell → Cell) : (s.benchWrite h w f).bench = s.bench := by
  unfold State.benchWrite; (repeat' split) <;> simp
@[simp] theorem State.benchWrite_startup (s : State) (h : Head) (w : Nat) (f : Cell → Cell) : (s.benchWrite h w f).startup = s.startup := by
  unfold State.benchWrite; (repeat' split) <;> simp
@[simp] theorem State.benchWrite_publishAtOnce (s : State) (h : Head) (w : Nat) (f : Cell → Cell) : (s.benchWrite h w f).publishAtOnce = s.publishAtOnce := by
  unfold State.benchWrite; (repeat' split) <;> simp
@[simp] theorem State.benchWrite_autoOrder (s : State) (h : Head) (w : Nat) (f : Cell → Cell) : (s.benchWrite h w f).autoOrder = s.autoOrder := by
  unfold State.benchWrite; (repeat' split) <;> simp
@[simp] theorem State.benchWrite_pending (s : State) (h : Head) (w : Nat) (f : Cell → Cell) : (s.benchWrite h w f).pending = s.pending := by
  unfold State.benchWrite; (repeat' split) <;> simp

/-! ### writeWord -/

@[simp] theorem State.writeWord_profiles (s : State) (p : Pointer) (w : Word) : (s.writeWord p w).profiles = s.profiles := by
  unfold State.writeWord; dsimp only; simp
@[simp] theorem State.writeWord_publishing (s : State) (p : Pointer) (w : Word) : (s.writeWord p w).publishing = s.publishing := by
  unfold State.writeWord; dsimp only; simp
@[simp] theorem State.writeWord_settings (s : State) (p : Pointer) (w : Word) : (s.writeWord p w).settings = s.settings := by
  unfold State.writeWord; dsimp only; simp
@[simp] theorem State.writeWord_sweep (s : State) (p : Pointer) (w : Word) : (s.writeWord p w).sweep = s.sweep := by
  unfold State.writeWord; dsimp only; simp
@[simp] theorem State.writeWord_capture (s : State) (p : Pointer) (w : Word) : (s.writeWord p w).capture = s.capture := by
  unfold State.writeWord; dsimp only; simp
@[simp] theorem State.writeWord_index (s : State) (p : Pointer) (w : Word) : (s.writeWord p w).index = s.index := by
  unfold State.writeWord; dsimp only; simp
@[simp] theorem State.writeWord_held (s : State) (p : Pointer) (w : Word) : (s.writeWord p w).held = s.held := by
  unfold State.writeWord; dsimp only; simp
@[simp] theorem State.writeWord_autoRequests (s : State) (p : Pointer) (w : Word) : (s.writeWord p w).autoRequests = s.autoRequests := by
  unfold State.writeWord; dsimp only; simp
@[simp] theorem State.writeWord_runs (s : State) (p : Pointer) (w : Word) : (s.writeWord p w).runs = s.runs := by
  unfold State.writeWord; dsimp only; simp
@[simp] theorem State.writeWord_ff (s : State) (p : Pointer) (w : Word) : (s.writeWord p w).ff = s.ff := by
  unfold State.writeWord; dsimp only; simp
@[simp] theorem State.writeWord_exclusions (s : State) (p : Pointer) (w : Word) : (s.writeWord p w).exclusions = s.exclusions := by
  unfold State.writeWord; dsimp only; simp
@[simp] theorem State.writeWord_perms (s : State) (p : Pointer) (w : Word) : (s.writeWord p w).perms = s.perms := by
  unfold State.writeWord; dsimp only; simp
@[simp] theorem State.writeWord_startup (s : State) (p : Pointer) (w : Word) : (s.writeWord p w).startup = s.startup := by
  unfold State.writeWord; dsimp only; simp
@[simp] theorem State.writeWord_publishAtOnce (s : State) (p : Pointer) (w : Word) : (s.writeWord p w).publishAtOnce = s.publishAtOnce := by
  unfold State.writeWord; dsimp only; simp
@[simp] theorem State.writeWord_autoOrder (s : State) (p : Pointer) (w : Word) : (s.writeWord p w).autoOrder = s.autoOrder := by
  unfold State.writeWord; dsimp only; simp
@[simp] theorem State.writeWord_pending (s : State) (p : Pointer) (w : Word) : (s.writeWord p w).pending = s.pending := by
  unfold State.writeWord; dsimp only; simp
@[simp] theorem State.writeWord_bench_assembly (s : State) (p : Pointer) (w : Word) : (s.writeWord p w).bench.assembly = s.bench.assembly := by
  unfold State.writeWord; dsimp only; simp
@[simp] theorem State.writeWord_bench_returnQueue (s : State) (p : Pointer) (w : Word) : (s.writeWord p w).bench.returnQueue = s.bench.returnQueue := by
  unfold State.writeWord; dsimp only; simp
@[simp] theorem State.writeWord_bench_window (s : State) (p : Pointer) (w : Word) : (s.writeWord p w).bench.window = s.bench.window := by
  unfold State.writeWord; dsimp only; simp
@[simp] theorem State.writeWord_bench_order (s : State) (p : Pointer) (w : Word) : (s.writeWord p w).bench.order = s.bench.order := by
  unfold State.writeWord; dsimp only; simp
@[simp] theorem State.writeWord_bench_stream (s : State) (p : Pointer) (w : Word) : (s.writeWord p w).bench.stream = s.bench.stream := by
  unfold State.writeWord; dsimp only; simp
@[simp] theorem State.writeWord_bench_lastOutcome (s : State) (p : Pointer) (w : Word) : (s.writeWord p w).bench.lastOutcome = s.bench.lastOutcome := by
  unfold State.writeWord; dsimp only; simp
@[simp] theorem State.writeWord_bench_flags (s : State) (p : Pointer) (w : Word) : (s.writeWord p w).bench.flags = s.bench.flags := by
  unfold State.writeWord; dsimp only; simp
@[simp] theorem State.writeWord_bench_enables (s : State) (p : Pointer) (w : Word) : (s.writeWord p w).bench.enables = s.bench.enables := by
  unfold State.writeWord; dsimp only; simp
@[simp] theorem State.writeWord_bench_selected (s : State) (p : Pointer) (w : Word) : (s.writeWord p w).bench.selected = s.bench.selected := by
  unfold State.writeWord; dsimp only; simp
@[simp] theorem State.writeWord_bench_out (s : State) (p : Pointer) (w : Word) : (s.writeWord p w).bench.out = s.bench.out := by
  unfold State.writeWord; dsimp only; simp

/-! ### writeAtPointer -/

@[simp] theorem State.writeAtPointer_profiles (s : State) (w : Word) : (s.writeAtPointer w).profiles = s.profiles := by
  unfold State.writeAtPointer; (repeat' split) <;> simp
@[simp] theorem State.writeAtPointer_publishing (s : State) (w : Word) : (s.writeAtPointer w).publishing = s.publishing := by
  unfold State.writeAtPointer; (repeat' split) <;> simp
@[simp] theorem State.writeAtPointer_settings (s : State) (w : Word) : (s.writeAtPointer w).settings = s.settings := by
  unfold State.writeAtPointer; (repeat' split) <;> simp
@[simp] theorem State.writeAtPointer_sweep (s : State) (w : Word) : (s.writeAtPointer w).sweep = s.sweep := by
  unfold State.writeAtPointer; (repeat' split) <;> simp
@[simp] theorem State.writeAtPointer_capture (s : State) (w : Word) : (s.writeAtPointer w).capture = s.capture := by
  unfold State.writeAtPointer; (repeat' split) <;> simp
@[simp] theorem State.writeAtPointer_index (s : State) (w : Word) : (s.writeAtPointer w).index = s.index := by
  unfold State.writeAtPointer; (repeat' split) <;> simp
@[simp] theorem State.writeAtPointer_exclusions (s : State) (w : Word) : (s.writeAtPointer w).exclusions = s.exclusions := by
  unfold State.writeAtPointer; (repeat' split) <;> simp
@[simp] theorem State.writeAtPointer_perms (s : State) (w : Word) : (s.writeAtPointer w).perms = s.perms := by
  unfold State.writeAtPointer; (repeat' split) <;> simp
@[simp] theorem State.writeAtPointer_startup (s : State) (w : Word) : (s.writeAtPointer w).startup = s.startup := by
  unfold State.writeAtPointer; (repeat' split) <;> simp
@[simp] theorem State.writeAtPointer_publishAtOnce (s : State) (w : Word) : (s.writeAtPointer w).publishAtOnce = s.publishAtOnce := by
  unfold State.writeAtPointer; (repeat' split) <;> simp
@[simp] theorem State.writeAtPointer_autoOrder (s : State) (w : Word) : (s.writeAtPointer w).autoOrder = s.autoOrder := by
  unfold State.writeAtPointer; (repeat' split) <;> simp
@[simp] theorem State.writeAtPointer_pending (s : State) (w : Word) : (s.writeAtPointer w).pending = s.pending := by
  unfold State.writeAtPointer; (repeat' split) <;> simp
@[simp] theorem State.writeAtPointer_bench_assembly (s : State) (w : Word) : (s.writeAtPointer w).bench.assembly = s.bench.assembly := by
  unfold State.writeAtPointer; (repeat' split) <;> simp
@[simp] theorem State.writeAtPointer_bench_returnQueue (s : State) (w : Word) : (s.writeAtPointer w).bench.returnQueue = s.bench.returnQueue := by
  unfold State.writeAtPointer; (repeat' split) <;> simp
@[simp] theorem State.writeAtPointer_bench_window (s : State) (w : Word) : (s.writeAtPointer w).bench.window = s.bench.window := by
  unfold State.writeAtPointer; (repeat' split) <;> simp
@[simp] theorem State.writeAtPointer_bench_order (s : State) (w : Word) : (s.writeAtPointer w).bench.order = s.bench.order := by
  unfold State.writeAtPointer; (repeat' split) <;> simp
@[simp] theorem State.writeAtPointer_bench_stream (s : State) (w : Word) : (s.writeAtPointer w).bench.stream = s.bench.stream := by
  unfold State.writeAtPointer; (repeat' split) <;> simp
@[simp] theorem State.writeAtPointer_bench_lastOutcome (s : State) (w : Word) : (s.writeAtPointer w).bench.lastOutcome = s.bench.lastOutcome := by
  unfold State.writeAtPointer; (repeat' split) <;> simp
@[simp] theorem State.writeAtPointer_bench_flags (s : State) (w : Word) : (s.writeAtPointer w).bench.flags = s.bench.flags := by
  unfold State.writeAtPointer; (repeat' split) <;> simp
@[simp] theorem State.writeAtPointer_bench_enables (s : State) (w : Word) : (s.writeAtPointer w).bench.enables = s.bench.enables := by
  unfold State.writeAtPointer; (repeat' split) <;> simp
@[simp] theorem State.writeAtPointer_bench_selected (s : State) (w : Word) : (s.writeAtPointer w).bench.selected = s.bench.selected := by
  unfold State.writeAtPointer; (repeat' split) <;> simp
@[simp] theorem State.writeAtPointer_bench_out (s : State) (w : Word) : (s.writeAtPointer w).bench.out = s.bench.out := by
  unfold State.writeAtPointer; (repeat' split) <;> simp
@[simp] theorem State.writeAtPointer_runs_queue (s : State) (w : Word) : (s.writeAtPointer w).runs.queue = s.runs.queue := by
  unfold State.writeAtPointer; (repeat' split) <;> simp
@[simp] theorem State.writeAtPointer_runs_results (s : State) (w : Word) : (s.writeAtPointer w).runs.results = s.runs.results := by
  unfold State.writeAtPointer; (repeat' split) <;> simp
@[simp] theorem State.writeAtPointer_runs_serial (s : State) (w : Word) : (s.writeAtPointer w).runs.serial = s.runs.serial := by
  unfold State.writeAtPointer; (repeat' split) <;> simp

/-! ### importWord -/

@[simp] theorem State.importWord_publishing (s : State) (i : Import) (w : Word) : (s.importWord i w).publishing = s.publishing := by
  unfold State.importWord; dsimp only; (repeat' split) <;> simp
@[simp] theorem State.importWord_settings (s : State) (i : Import) (w : Word) : (s.importWord i w).settings = s.settings := by
  unfold State.importWord; dsimp only; (repeat' split) <;> simp
@[simp] theorem State.importWord_sweep (s : State) (i : Import) (w : Word) : (s.importWord i w).sweep = s.sweep := by
  unfold State.importWord; dsimp only; (repeat' split) <;> simp
@[simp] theorem State.importWord_capture (s : State) (i : Import) (w : Word) : (s.importWord i w).capture = s.capture := by
  unfold State.importWord; dsimp only; (repeat' split) <;> simp
@[simp] theorem State.importWord_index (s : State) (i : Import) (w : Word) : (s.importWord i w).index = s.index := by
  unfold State.importWord; dsimp only; (repeat' split) <;> simp
@[simp] theorem State.importWord_exclusions (s : State) (i : Import) (w : Word) : (s.importWord i w).exclusions = s.exclusions := by
  unfold State.importWord; dsimp only; (repeat' split) <;> simp
@[simp] theorem State.importWord_perms (s : State) (i : Import) (w : Word) : (s.importWord i w).perms = s.perms := by
  unfold State.importWord; dsimp only; (repeat' split) <;> simp
@[simp] theorem State.importWord_startup (s : State) (i : Import) (w : Word) : (s.importWord i w).startup = s.startup := by
  unfold State.importWord; dsimp only; (repeat' split) <;> simp
@[simp] theorem State.importWord_publishAtOnce (s : State) (i : Import) (w : Word) : (s.importWord i w).publishAtOnce = s.publishAtOnce := by
  unfold State.importWord; dsimp only; (repeat' split) <;> simp
@[simp] theorem State.importWord_autoOrder (s : State) (i : Import) (w : Word) : (s.importWord i w).autoOrder = s.autoOrder := by
  unfold State.importWord; dsimp only; (repeat' split) <;> simp
@[simp] theorem State.importWord_pending (s : State) (i : Import) (w : Word) : (s.importWord i w).pending = s.pending := by
  unfold State.importWord; dsimp only; (repeat' split) <;> simp
@[simp] theorem State.importWord_bench_returnQueue (s : State) (i : Import) (w : Word) : (s.importWord i w).bench.returnQueue = s.bench.returnQueue := by
  unfold State.importWord; dsimp only; (repeat' split) <;> simp
@[simp] theorem State.importWord_bench_window (s : State) (i : Import) (w : Word) : (s.importWord i w).bench.window = s.bench.window := by
  unfold State.importWord; dsimp only; (repeat' split) <;> simp
@[simp] theorem State.importWord_bench_order (s : State) (i : Import) (w : Word) : (s.importWord i w).bench.order = s.bench.order := by
  unfold State.importWord; dsimp only; (repeat' split) <;> simp
@[simp] theorem State.importWord_bench_stream (s : State) (i : Import) (w : Word) : (s.importWord i w).bench.stream = s.bench.stream := by
  unfold State.importWord; dsimp only; (repeat' split) <;> simp
@[simp] theorem State.importWord_bench_lastOutcome (s : State) (i : Import) (w : Word) : (s.importWord i w).bench.lastOutcome = s.bench.lastOutcome := by
  unfold State.importWord; dsimp only; (repeat' split) <;> simp
@[simp] theorem State.importWord_bench_enables (s : State) (i : Import) (w : Word) : (s.importWord i w).bench.enables = s.bench.enables := by
  unfold State.importWord; dsimp only; (repeat' split) <;> simp
@[simp] theorem State.importWord_bench_selected (s : State) (i : Import) (w : Word) : (s.importWord i w).bench.selected = s.bench.selected := by
  unfold State.importWord; dsimp only; (repeat' split) <;> simp
@[simp] theorem State.importWord_bench_out (s : State) (i : Import) (w : Word) : (s.importWord i w).bench.out = s.bench.out := by
  unfold State.importWord; dsimp only; (repeat' split) <;> simp
@[simp] theorem State.importWord_runs_queue (s : State) (i : Import) (w : Word) : (s.importWord i w).runs.queue = s.runs.queue := by
  unfold State.importWord; dsimp only; (repeat' split) <;> simp
@[simp] theorem State.importWord_runs_results (s : State) (i : Import) (w : Word) : (s.importWord i w).runs.results = s.runs.results := by
  unfold State.importWord; dsimp only; (repeat' split) <;> simp
@[simp] theorem State.importWord_runs_serial (s : State) (i : Import) (w : Word) : (s.importWord i w).runs.serial = s.runs.serial := by
  unfold State.importWord; dsimp only; (repeat' split) <;> simp

/-! ### dataWord -/

@[simp] theorem State.dataWord_publishing (s : State) (imp : Option Import) (w : Word) : (s.dataWord imp w).publishing = s.publishing := by
  unfold State.dataWord; (repeat' split) <;> simp
@[simp] theorem State.dataWord_settings (s : State) (imp : Option Import) (w : Word) : (s.dataWord imp w).settings = s.settings := by
  unfold State.dataWord; (repeat' split) <;> simp
@[simp] theorem State.dataWord_sweep (s : State) (imp : Option Import) (w : Word) : (s.dataWord imp w).sweep = s.sweep := by
  unfold State.dataWord; (repeat' split) <;> simp
@[simp] theorem State.dataWord_capture (s : State) (imp : Option Import) (w : Word) : (s.dataWord imp w).capture = s.capture := by
  unfold State.dataWord; (repeat' split) <;> simp
@[simp] theorem State.dataWord_index (s : State) (imp : Option Import) (w : Word) : (s.dataWord imp w).index = s.index := by
  unfold State.dataWord; (repeat' split) <;> simp
@[simp] theorem State.dataWord_exclusions (s : State) (imp : Option Import) (w : Word) : (s.dataWord imp w).exclusions = s.exclusions := by
  unfold State.dataWord; (repeat' split) <;> simp
@[simp] theorem State.dataWord_perms (s : State) (imp : Option Import) (w : Word) : (s.dataWord imp w).perms = s.perms := by
  unfold State.dataWord; (repeat' split) <;> simp
@[simp] theorem State.dataWord_startup (s : State) (imp : Option Import) (w : Word) : (s.dataWord imp w).startup = s.startup := by
  unfold State.dataWord; (repeat' split) <;> simp
@[simp] theorem State.dataWord_publishAtOnce (s : State) (imp : Option Import) (w : Word) : (s.dataWord imp w).publishAtOnce = s.publishAtOnce := by
  unfold State.dataWord; (repeat' split) <;> simp
@[simp] theorem State.dataWord_autoOrder (s : State) (imp : Option Import) (w : Word) : (s.dataWord imp w).autoOrder = s.autoOrder := by
  unfold State.dataWord; (repeat' split) <;> simp
@[simp] theorem State.dataWord_pending (s : State) (imp : Option Import) (w : Word) : (s.dataWord imp w).pending = s.pending := by
  unfold State.dataWord; (repeat' split) <;> simp
@[simp] theorem State.dataWord_bench_returnQueue (s : State) (imp : Option Import) (w : Word) : (s.dataWord imp w).bench.returnQueue = s.bench.returnQueue := by
  unfold State.dataWord; (repeat' split) <;> simp
@[simp] theorem State.dataWord_bench_window (s : State) (imp : Option Import) (w : Word) : (s.dataWord imp w).bench.window = s.bench.window := by
  unfold State.dataWord; (repeat' split) <;> simp
@[simp] theorem State.dataWord_bench_order (s : State) (imp : Option Import) (w : Word) : (s.dataWord imp w).bench.order = s.bench.order := by
  unfold State.dataWord; (repeat' split) <;> simp
@[simp] theorem State.dataWord_bench_stream (s : State) (imp : Option Import) (w : Word) : (s.dataWord imp w).bench.stream = s.bench.stream := by
  unfold State.dataWord; (repeat' split) <;> simp
@[simp] theorem State.dataWord_bench_lastOutcome (s : State) (imp : Option Import) (w : Word) : (s.dataWord imp w).bench.lastOutcome = s.bench.lastOutcome := by
  unfold State.dataWord; (repeat' split) <;> simp
@[simp] theorem State.dataWord_bench_enables (s : State) (imp : Option Import) (w : Word) : (s.dataWord imp w).bench.enables = s.bench.enables := by
  unfold State.dataWord; (repeat' split) <;> simp
@[simp] theorem State.dataWord_bench_selected (s : State) (imp : Option Import) (w : Word) : (s.dataWord imp w).bench.selected = s.bench.selected := by
  unfold State.dataWord; (repeat' split) <;> simp
@[simp] theorem State.dataWord_bench_out (s : State) (imp : Option Import) (w : Word) : (s.dataWord imp w).bench.out = s.bench.out := by
  unfold State.dataWord; (repeat' split) <;> simp
@[simp] theorem State.dataWord_runs_queue (s : State) (imp : Option Import) (w : Word) : (s.dataWord imp w).runs.queue = s.runs.queue := by
  unfold State.dataWord; (repeat' split) <;> simp
@[simp] theorem State.dataWord_runs_results (s : State) (imp : Option Import) (w : Word) : (s.dataWord imp w).runs.results = s.runs.results := by
  unfold State.dataWord; (repeat' split) <;> simp
@[simp] theorem State.dataWord_runs_serial (s : State) (imp : Option Import) (w : Word) : (s.dataWord imp w).runs.serial = s.runs.serial := by
  unfold State.dataWord; (repeat' split) <;> simp

/-! ### endRun -/

@[simp] theorem State.endRun_settings (s : State) (o : RunOutcome) (c : RunCause) : (s.endRun o c).settings = s.settings := by
  unfold State.endRun; (repeat' split) <;> simp
@[simp] theorem State.endRun_sweep (s : State) (o : RunOutcome) (c : RunCause) : (s.endRun o c).sweep = s.sweep := by
  unfold State.endRun; (repeat' split) <;> simp
@[simp] theorem State.endRun_capture (s : State) (o : RunOutcome) (c : RunCause) : (s.endRun o c).capture = s.capture := by
  unfold State.endRun; (repeat' split) <;> simp
@[simp] theorem State.endRun_held (s : State) (o : RunOutcome) (c : RunCause) : (s.endRun o c).held = s.held := by
  unfold State.endRun; (repeat' split) <;> simp
@[simp] theorem State.endRun_autoRequests (s : State) (o : RunOutcome) (c : RunCause) : (s.endRun o c).autoRequests = s.autoRequests := by
  unfold State.endRun; (repeat' split) <;> simp
@[simp] theorem State.endRun_ff (s : State) (o : RunOutcome) (c : RunCause) : (s.endRun o c).ff = s.ff := by
  unfold State.endRun; (repeat' split) <;> simp
@[simp] theorem State.endRun_exclusions (s : State) (o : RunOutcome) (c : RunCause) : (s.endRun o c).exclusions = s.exclusions := by
  unfold State.endRun; (repeat' split) <;> simp
@[simp] theorem State.endRun_perms (s : State) (o : RunOutcome) (c : RunCause) : (s.endRun o c).perms = s.perms := by
  unfold State.endRun; (repeat' split) <;> simp
@[simp] theorem State.endRun_startup (s : State) (o : RunOutcome) (c : RunCause) : (s.endRun o c).startup = s.startup := by
  unfold State.endRun; (repeat' split) <;> simp
@[simp] theorem State.endRun_publishAtOnce (s : State) (o : RunOutcome) (c : RunCause) : (s.endRun o c).publishAtOnce = s.publishAtOnce := by
  unfold State.endRun; (repeat' split) <;> simp
@[simp] theorem State.endRun_autoOrder (s : State) (o : RunOutcome) (c : RunCause) : (s.endRun o c).autoOrder = s.autoOrder := by
  unfold State.endRun; (repeat' split) <;> simp
@[simp] theorem State.endRun_pending (s : State) (o : RunOutcome) (c : RunCause) : (s.endRun o c).pending = s.pending := by
  unfold State.endRun; (repeat' split) <;> simp
@[simp] theorem State.endRun_bench_assembly (s : State) (o : RunOutcome) (c : RunCause) : (s.endRun o c).bench.assembly = s.bench.assembly := by
  unfold State.endRun; (repeat' split) <;> simp
@[simp] theorem State.endRun_bench_returnQueue (s : State) (o : RunOutcome) (c : RunCause) : (s.endRun o c).bench.returnQueue = s.bench.returnQueue := by
  unfold State.endRun; (repeat' split) <;> simp
@[simp] theorem State.endRun_bench_window (s : State) (o : RunOutcome) (c : RunCause) : (s.endRun o c).bench.window = s.bench.window := by
  unfold State.endRun; (repeat' split) <;> simp
@[simp] theorem State.endRun_bench_order (s : State) (o : RunOutcome) (c : RunCause) : (s.endRun o c).bench.order = s.bench.order := by
  unfold State.endRun; (repeat' split) <;> simp
@[simp] theorem State.endRun_bench_pointer (s : State) (o : RunOutcome) (c : RunCause) : (s.endRun o c).bench.pointer = s.bench.pointer := by
  unfold State.endRun; (repeat' split) <;> simp
@[simp] theorem State.endRun_bench_stream (s : State) (o : RunOutcome) (c : RunCause) : (s.endRun o c).bench.stream = s.bench.stream := by
  unfold State.endRun; (repeat' split) <;> simp
@[simp] theorem State.endRun_bench_lastOutcome (s : State) (o : RunOutcome) (c : RunCause) : (s.endRun o c).bench.lastOutcome = s.bench.lastOutcome := by
  unfold State.endRun; (repeat' split) <;> simp
@[simp] theorem State.endRun_bench_enables (s : State) (o : RunOutcome) (c : RunCause) : (s.endRun o c).bench.enables = s.bench.enables := by
  unfold State.endRun; (repeat' split) <;> simp
@[simp] theorem State.endRun_bench_selected (s : State) (o : RunOutcome) (c : RunCause) : (s.endRun o c).bench.selected = s.bench.selected := by
  unfold State.endRun; (repeat' split) <;> simp
@[simp] theorem State.endRun_bench_out (s : State) (o : RunOutcome) (c : RunCause) : (s.endRun o c).bench.out = s.bench.out := by
  unfold State.endRun; (repeat' split) <;> simp
@[simp] theorem State.endRun_runs_queue (s : State) (o : RunOutcome) (c : RunCause) : (s.endRun o c).runs.queue = s.runs.queue := by
  unfold State.endRun; (repeat' split) <;> simp
@[simp] theorem State.endRun_runs_serial (s : State) (o : RunOutcome) (c : RunCause) : (s.endRun o c).runs.serial = s.runs.serial := by
  unfold State.endRun; (repeat' split) <;> simp

/-! ### finishTest -/

@[simp] theorem State.finishTest_map (s : State) (own : MemoryResult) : (s.finishTest own).map = s.map := by
  unfold State.finishTest; dsimp only
@[simp] theorem State.finishTest_publishing (s : State) (own : MemoryResult) : (s.finishTest own).publishing = s.publishing := by
  unfold State.finishTest; dsimp only
@[simp] theorem State.finishTest_settings (s : State) (own : MemoryResult) : (s.finishTest own).settings = s.settings := by
  unfold State.finishTest; dsimp only
@[simp] theorem State.finishTest_sweep (s : State) (own : MemoryResult) : (s.finishTest own).sweep = s.sweep := by
  unfold State.finishTest; dsimp only
@[simp] theorem State.finishTest_capture (s : State) (own : MemoryResult) : (s.finishTest own).capture = s.capture := by
  unfold State.finishTest; dsimp only
@[simp] theorem State.finishTest_index (s : State) (own : MemoryResult) : (s.finishTest own).index = s.index := by
  unfold State.finishTest; dsimp only
@[simp] theorem State.finishTest_held (s : State) (own : MemoryResult) : (s.finishTest own).held = s.held := by
  unfold State.finishTest; dsimp only
@[simp] theorem State.finishTest_autoRequests (s : State) (own : MemoryResult) : (s.finishTest own).autoRequests = s.autoRequests := by
  unfold State.finishTest; dsimp only
@[simp] theorem State.finishTest_ff (s : State) (own : MemoryResult) : (s.finishTest own).ff = s.ff := by
  unfold State.finishTest; dsimp only
@[simp] theorem State.finishTest_exclusions (s : State) (own : MemoryResult) : (s.finishTest own).exclusions = s.exclusions := by
  unfold State.finishTest; dsimp only
@[simp] theorem State.finishTest_perms (s : State) (own : MemoryResult) : (s.finishTest own).perms = s.perms := by
  unfold State.finishTest; dsimp only
@[simp] theorem State.finishTest_publishAtOnce (s : State) (own : MemoryResult) : (s.finishTest own).publishAtOnce = s.publishAtOnce := by
  unfold State.finishTest; dsimp only
@[simp] theorem State.finishTest_autoOrder (s : State) (own : MemoryResult) : (s.finishTest own).autoOrder = s.autoOrder := by
  unfold State.finishTest; dsimp only
@[simp] theorem State.finishTest_pending (s : State) (own : MemoryResult) : (s.finishTest own).pending = s.pending := by
  unfold State.finishTest; dsimp only
@[simp] theorem State.finishTest_bench_assembly (s : State) (own : MemoryResult) : (s.finishTest own).bench.assembly = s.bench.assembly := by
  unfold State.finishTest; dsimp only
@[simp] theorem State.finishTest_bench_returnQueue (s : State) (own : MemoryResult) : (s.finishTest own).bench.returnQueue = s.bench.returnQueue := by
  unfold State.finishTest; dsimp only
@[simp] theorem State.finishTest_bench_window (s : State) (own : MemoryResult) : (s.finishTest own).bench.window = s.bench.window := by
  unfold State.finishTest; dsimp only
@[simp] theorem State.finishTest_bench_order (s : State) (own : MemoryResult) : (s.finishTest own).bench.order = s.bench.order := by
  unfold State.finishTest; dsimp only
@[simp] theorem State.finishTest_bench_pointer (s : State) (own : MemoryResult) : (s.finishTest own).bench.pointer = s.bench.pointer := by
  unfold State.finishTest; dsimp only
@[simp] theorem State.finishTest_bench_stream (s : State) (own : MemoryResult) : (s.finishTest own).bench.stream = s.bench.stream := by
  unfold State.finishTest; dsimp only
@[simp] theorem State.finishTest_bench_lastOutcome (s : State) (own : MemoryResult) : (s.finishTest own).bench.lastOutcome = s.bench.lastOutcome := by
  unfold State.finishTest; dsimp only
@[simp] theorem State.finishTest_bench_enables (s : State) (own : MemoryResult) : (s.finishTest own).bench.enables = s.bench.enables := by
  unfold State.finishTest; dsimp only
@[simp] theorem State.finishTest_bench_selected (s : State) (own : MemoryResult) : (s.finishTest own).bench.selected = s.bench.selected := by
  unfold State.finishTest; dsimp only
@[simp] theorem State.finishTest_bench_out (s : State) (own : MemoryResult) : (s.finishTest own).bench.out = s.bench.out := by
  unfold State.finishTest; dsimp only
@[simp] theorem State.finishTest_runs_active (s : State) (own : MemoryResult) : (s.finishTest own).runs.active = s.runs.active := by
  unfold State.finishTest; dsimp only
@[simp] theorem State.finishTest_runs_results (s : State) (own : MemoryResult) : (s.finishTest own).runs.results = s.runs.results := by
  unfold State.finishTest; dsimp only
@[simp] theorem State.finishTest_runs_serial (s : State) (own : MemoryResult) : (s.finishTest own).runs.serial = s.runs.serial := by
  unfold State.finishTest; dsimp only

/-! ### endTestIfDone -/

@[simp] theorem State.endTestIfDone_map (s : State) : (s.endTestIfDone).map = s.map := by
  unfold State.endTestIfDone; (repeat' split) <;> simp
@[simp] theorem State.endTestIfDone_publishing (s : State) : (s.endTestIfDone).publishing = s.publishing := by
  unfold State.endTestIfDone; (repeat' split) <;> simp
@[simp] theorem State.endTestIfDone_settings (s : State) : (s.endTestIfDone).settings = s.settings := by
  unfold State.endTestIfDone; (repeat' split) <;> simp
@[simp] theorem State.endTestIfDone_sweep (s : State) : (s.endTestIfDone).sweep = s.sweep := by
  unfold State.endTestIfDone; (repeat' split) <;> simp
@[simp] theorem State.endTestIfDone_capture (s : State) : (s.endTestIfDone).capture = s.capture := by
  unfold State.endTestIfDone; (repeat' split) <;> simp
@[simp] theorem State.endTestIfDone_index (s : State) : (s.endTestIfDone).index = s.index := by
  unfold State.endTestIfDone; (repeat' split) <;> simp
@[simp] theorem State.endTestIfDone_held (s : State) : (s.endTestIfDone).held = s.held := by
  unfold State.endTestIfDone; (repeat' split) <;> simp
@[simp] theorem State.endTestIfDone_autoRequests (s : State) : (s.endTestIfDone).autoRequests = s.autoRequests := by
  unfold State.endTestIfDone; (repeat' split) <;> simp
@[simp] theorem State.endTestIfDone_ff (s : State) : (s.endTestIfDone).ff = s.ff := by
  unfold State.endTestIfDone; (repeat' split) <;> simp
@[simp] theorem State.endTestIfDone_exclusions (s : State) : (s.endTestIfDone).exclusions = s.exclusions := by
  unfold State.endTestIfDone; (repeat' split) <;> simp
@[simp] theorem State.endTestIfDone_perms (s : State) : (s.endTestIfDone).perms = s.perms := by
  unfold State.endTestIfDone; (repeat' split) <;> simp
@[simp] theorem State.endTestIfDone_publishAtOnce (s : State) : (s.endTestIfDone).publishAtOnce = s.publishAtOnce := by
  unfold State.endTestIfDone; (repeat' split) <;> simp
@[simp] theorem State.endTestIfDone_autoOrder (s : State) : (s.endTestIfDone).autoOrder = s.autoOrder := by
  unfold State.endTestIfDone; (repeat' split) <;> simp
@[simp] theorem State.endTestIfDone_pending (s : State) : (s.endTestIfDone).pending = s.pending := by
  unfold State.endTestIfDone; (repeat' split) <;> simp
@[simp] theorem State.endTestIfDone_bench_assembly (s : State) : (s.endTestIfDone).bench.assembly = s.bench.assembly := by
  unfold State.endTestIfDone; (repeat' split) <;> simp
@[simp] theorem State.endTestIfDone_bench_returnQueue (s : State) : (s.endTestIfDone).bench.returnQueue = s.bench.returnQueue := by
  unfold State.endTestIfDone; (repeat' split) <;> simp
@[simp] theorem State.endTestIfDone_bench_window (s : State) : (s.endTestIfDone).bench.window = s.bench.window := by
  unfold State.endTestIfDone; (repeat' split) <;> simp
@[simp] theorem State.endTestIfDone_bench_order (s : State) : (s.endTestIfDone).bench.order = s.bench.order := by
  unfold State.endTestIfDone; (repeat' split) <;> simp
@[simp] theorem State.endTestIfDone_bench_pointer (s : State) : (s.endTestIfDone).bench.pointer = s.bench.pointer := by
  unfold State.endTestIfDone; (repeat' split) <;> simp
@[simp] theorem State.endTestIfDone_bench_stream (s : State) : (s.endTestIfDone).bench.stream = s.bench.stream := by
  unfold State.endTestIfDone; (repeat' split) <;> simp
@[simp] theorem State.endTestIfDone_bench_lastOutcome (s : State) : (s.endTestIfDone).bench.lastOutcome = s.bench.lastOutcome := by
  unfold State.endTestIfDone; (repeat' split) <;> simp
@[simp] theorem State.endTestIfDone_bench_enables (s : State) : (s.endTestIfDone).bench.enables = s.bench.enables := by
  unfold State.endTestIfDone; (repeat' split) <;> simp
@[simp] theorem State.endTestIfDone_bench_selected (s : State) : (s.endTestIfDone).bench.selected = s.bench.selected := by
  unfold State.endTestIfDone; (repeat' split) <;> simp
@[simp] theorem State.endTestIfDone_bench_out (s : State) : (s.endTestIfDone).bench.out = s.bench.out := by
  unfold State.endTestIfDone; (repeat' split) <;> simp
@[simp] theorem State.endTestIfDone_runs_active (s : State) : (s.endTestIfDone).runs.active = s.runs.active := by
  unfold State.endTestIfDone; (repeat' split) <;> simp
@[simp] theorem State.endTestIfDone_runs_results (s : State) : (s.endTestIfDone).runs.results = s.runs.results := by
  unfold State.endTestIfDone; (repeat' split) <;> simp
@[simp] theorem State.endTestIfDone_runs_serial (s : State) : (s.endTestIfDone).runs.serial = s.runs.serial := by
  unfold State.endTestIfDone; (repeat' split) <;> simp

/-! ### beginTest -/

@[simp] theorem State.beginTest_publishing (s : State) : (s.beginTest).publishing = s.publishing := by
  unfold State.beginTest; dsimp only; (repeat' split) <;> simp
@[simp] theorem State.beginTest_settings (s : State) : (s.beginTest).settings = s.settings := by
  unfold State.beginTest; dsimp only; (repeat' split) <;> simp
@[simp] theorem State.beginTest_sweep (s : State) : (s.beginTest).sweep = s.sweep := by
  unfold State.beginTest; dsimp only; (repeat' split) <;> simp
@[simp] theorem State.beginTest_capture (s : State) : (s.beginTest).capture = s.capture := by
  unfold State.beginTest; dsimp only; (repeat' split) <;> simp
@[simp] theorem State.beginTest_index (s : State) : (s.beginTest).index = s.index := by
  unfold State.beginTest; dsimp only; (repeat' split) <;> simp
@[simp] theorem State.beginTest_held (s : State) : (s.beginTest).held = s.held := by
  unfold State.beginTest; dsimp only; (repeat' split) <;> simp
@[simp] theorem State.beginTest_autoRequests (s : State) : (s.beginTest).autoRequests = s.autoRequests := by
  unfold State.beginTest; dsimp only; (repeat' split) <;> simp
@[simp] theorem State.beginTest_ff (s : State) : (s.beginTest).ff = s.ff := by
  unfold State.beginTest; dsimp only; (repeat' split) <;> simp
@[simp] theorem State.beginTest_bench (s : State) : (s.beginTest).bench = s.bench := by
  unfold State.beginTest; dsimp only; (repeat' split) <;> simp
@[simp] theorem State.beginTest_publishAtOnce (s : State) : (s.beginTest).publishAtOnce = s.publishAtOnce := by
  unfold State.beginTest; dsimp only; (repeat' split) <;> simp
@[simp] theorem State.beginTest_autoOrder (s : State) : (s.beginTest).autoOrder = s.autoOrder := by
  unfold State.beginTest; dsimp only; (repeat' split) <;> simp
@[simp] theorem State.beginTest_pending (s : State) : (s.beginTest).pending = s.pending := by
  unfold State.beginTest; dsimp only; (repeat' split) <;> simp
@[simp] theorem State.beginTest_runs_active (s : State) : (s.beginTest).runs.active = s.runs.active := by
  unfold State.beginTest; dsimp only; (repeat' split) <;> simp
@[simp] theorem State.beginTest_runs_serial (s : State) : (s.beginTest).runs.serial = s.runs.serial := by
  unfold State.beginTest; dsimp only; (repeat' split) <;> simp

/-! ### prepareMap -/

@[simp] theorem State.prepareMap_publishing (s : State) : (s.prepareMap).publishing = s.publishing := by
  unfold State.prepareMap; simp
@[simp] theorem State.prepareMap_settings (s : State) : (s.prepareMap).settings = s.settings := by
  unfold State.prepareMap; simp
@[simp] theorem State.prepareMap_sweep (s : State) : (s.prepareMap).sweep = s.sweep := by unfold State.prepareMap; simp
@[simp] theorem State.prepareMap_capture (s : State) : (s.prepareMap).capture = s.capture := by
  unfold State.prepareMap; simp
@[simp] theorem State.prepareMap_index (s : State) : (s.prepareMap).index = s.index := by unfold State.prepareMap; simp
@[simp] theorem State.prepareMap_held (s : State) : (s.prepareMap).held = s.held := by unfold State.prepareMap; simp
@[simp] theorem State.prepareMap_autoRequests (s : State) : (s.prepareMap).autoRequests = s.autoRequests := by
  unfold State.prepareMap; simp
@[simp] theorem State.prepareMap_runs (s : State) : (s.prepareMap).runs = s.runs := by unfold State.prepareMap; simp
@[simp] theorem State.prepareMap_ff (s : State) : (s.prepareMap).ff = s.ff := by unfold State.prepareMap; simp
@[simp] theorem State.prepareMap_perms (s : State) : (s.prepareMap).perms = s.perms := by unfold State.prepareMap; simp
@[simp] theorem State.prepareMap_bench (s : State) : (s.prepareMap).bench = s.bench := by unfold State.prepareMap; simp
@[simp] theorem State.prepareMap_startup (s : State) : (s.prepareMap).startup = s.startup := by
  unfold State.prepareMap; simp
@[simp] theorem State.prepareMap_publishAtOnce (s : State) : (s.prepareMap).publishAtOnce = s.publishAtOnce := by
  unfold State.prepareMap; simp
@[simp] theorem State.prepareMap_autoOrder (s : State) : (s.prepareMap).autoOrder = s.autoOrder := by
  unfold State.prepareMap; simp
@[simp] theorem State.prepareMap_pending (s : State) : (s.prepareMap).pending = s.pending := by
  unfold State.prepareMap; simp

/-! ### recordPresence -/

@[simp] theorem State.recordPresence_map (s : State) (p : Presence) : (s.recordPresence p).map = s.map := by
  unfold State.recordPresence; simp
@[simp] theorem State.recordPresence_publishing (s : State) (p : Presence) : (s.recordPresence p).publishing = s.publishing := by
  unfold State.recordPresence; simp
@[simp] theorem State.recordPresence_settings (s : State) (p : Presence) : (s.recordPresence p).settings = s.settings := by
  unfold State.recordPresence; simp
@[simp] theorem State.recordPresence_sweep (s : State) (p : Presence) : (s.recordPresence p).sweep = s.sweep := by
  unfold State.recordPresence; simp
@[simp] theorem State.recordPresence_capture (s : State) (p : Presence) : (s.recordPresence p).capture = s.capture := by
  unfold State.recordPresence; simp
@[simp] theorem State.recordPresence_index (s : State) (p : Presence) : (s.recordPresence p).index = s.index := by
  unfold State.recordPresence; simp
@[simp] theorem State.recordPresence_held (s : State) (p : Presence) : (s.recordPresence p).held = s.held := by
  unfold State.recordPresence; simp
@[simp] theorem State.recordPresence_autoRequests (s : State) (p : Presence) : (s.recordPresence p).autoRequests = s.autoRequests := by
  unfold State.recordPresence; simp
@[simp] theorem State.recordPresence_ff (s : State) (p : Presence) : (s.recordPresence p).ff = s.ff := by
  unfold State.recordPresence; simp
@[simp] theorem State.recordPresence_exclusions (s : State) (p : Presence) : (s.recordPresence p).exclusions = s.exclusions := by
  unfold State.recordPresence; simp
@[simp] theorem State.recordPresence_perms (s : State) (p : Presence) : (s.recordPresence p).perms = s.perms := by
  unfold State.recordPresence; simp
@[simp] theorem State.recordPresence_publishAtOnce (s : State) (p : Presence) : (s.recordPresence p).publishAtOnce = s.publishAtOnce := by
  unfold State.recordPresence; simp
@[simp] theorem State.recordPresence_autoOrder (s : State) (p : Presence) : (s.recordPresence p).autoOrder = s.autoOrder := by
  unfold State.recordPresence; simp
@[simp] theorem State.recordPresence_pending (s : State) (p : Presence) : (s.recordPresence p).pending = s.pending := by
  unfold State.recordPresence; simp
@[simp] theorem State.recordPresence_bench_assembly (s : State) (p : Presence) : (s.recordPresence p).bench.assembly = s.bench.assembly := by
  unfold State.recordPresence; simp
@[simp] theorem State.recordPresence_bench_returnQueue (s : State) (p : Presence) : (s.recordPresence p).bench.returnQueue = s.bench.returnQueue := by
  unfold State.recordPresence; simp
@[simp] theorem State.recordPresence_bench_window (s : State) (p : Presence) : (s.recordPresence p).bench.window = s.bench.window := by
  unfold State.recordPresence; simp
@[simp] theorem State.recordPresence_bench_order (s : State) (p : Presence) : (s.recordPresence p).bench.order = s.bench.order := by
  unfold State.recordPresence; simp
@[simp] theorem State.recordPresence_bench_pointer (s : State) (p : Presence) : (s.recordPresence p).bench.pointer = s.bench.pointer := by
  unfold State.recordPresence; simp
@[simp] theorem State.recordPresence_bench_stream (s : State) (p : Presence) : (s.recordPresence p).bench.stream = s.bench.stream := by
  unfold State.recordPresence; simp
@[simp] theorem State.recordPresence_bench_lastOutcome (s : State) (p : Presence) : (s.recordPresence p).bench.lastOutcome = s.bench.lastOutcome := by
  unfold State.recordPresence; simp
@[simp] theorem State.recordPresence_bench_enables (s : State) (p : Presence) : (s.recordPresence p).bench.enables = s.bench.enables := by
  unfold State.recordPresence; simp
@[simp] theorem State.recordPresence_bench_selected (s : State) (p : Presence) : (s.recordPresence p).bench.selected = s.bench.selected := by
  unfold State.recordPresence; simp
@[simp] theorem State.recordPresence_bench_out (s : State) (p : Presence) : (s.recordPresence p).bench.out = s.bench.out := by
  unfold State.recordPresence; simp
@[simp] theorem State.recordPresence_runs_active (s : State) (p : Presence) : (s.recordPresence p).runs.active = s.runs.active := by
  unfold State.recordPresence; simp
@[simp] theorem State.recordPresence_runs_results (s : State) (p : Presence) : (s.recordPresence p).runs.results = s.runs.results := by
  unfold State.recordPresence; simp
@[simp] theorem State.recordPresence_runs_serial (s : State) (p : Presence) : (s.recordPresence p).runs.serial = s.runs.serial := by
  unfold State.recordPresence; simp

/-! ### assertPresent -/

@[simp] theorem State.assertPresent_map (s : State) : (s.assertPresent).map = s.map := by
  unfold State.assertPresent; (repeat' split) <;> simp
@[simp] theorem State.assertPresent_publishing (s : State) : (s.assertPresent).publishing = s.publishing := by
  unfold State.assertPresent; (repeat' split) <;> simp
@[simp] theorem State.assertPresent_settings (s : State) : (s.assertPresent).settings = s.settings := by
  unfold State.assertPresent; (repeat' split) <;> simp
@[simp] theorem State.assertPresent_sweep (s : State) : (s.assertPresent).sweep = s.sweep := by
  unfold State.assertPresent; (repeat' split) <;> simp
@[simp] theorem State.assertPresent_capture (s : State) : (s.assertPresent).capture = s.capture := by
  unfold State.assertPresent; (repeat' split) <;> simp
@[simp] theorem State.assertPresent_index (s : State) : (s.assertPresent).index = s.index := by
  unfold State.assertPresent; (repeat' split) <;> simp
@[simp] theorem State.assertPresent_held (s : State) : (s.assertPresent).held = s.held := by
  unfold State.assertPresent; (repeat' split) <;> simp
@[simp] theorem State.assertPresent_autoRequests (s : State) : (s.assertPresent).autoRequests = s.autoRequests := by
  unfold State.assertPresent; (repeat' split) <;> simp
@[simp] theorem State.assertPresent_ff (s : State) : (s.assertPresent).ff = s.ff := by
  unfold State.assertPresent; (repeat' split) <;> simp
@[simp] theorem State.assertPresent_exclusions (s : State) : (s.assertPresent).exclusions = s.exclusions := by
  unfold State.assertPresent; (repeat' split) <;> simp
@[simp] theorem State.assertPresent_perms (s : State) : (s.assertPresent).perms = s.perms := by
  unfold State.assertPresent; (repeat' split) <;> simp
@[simp] theorem State.assertPresent_publishAtOnce (s : State) : (s.assertPresent).publishAtOnce = s.publishAtOnce := by
  unfold State.assertPresent; (repeat' split) <;> simp
@[simp] theorem State.assertPresent_autoOrder (s : State) : (s.assertPresent).autoOrder = s.autoOrder := by
  unfold State.assertPresent; (repeat' split) <;> simp
@[simp] theorem State.assertPresent_pending (s : State) : (s.assertPresent).pending = s.pending := by
  unfold State.assertPresent; (repeat' split) <;> simp
@[simp] theorem State.assertPresent_bench_assembly (s : State) : (s.assertPresent).bench.assembly = s.bench.assembly := by
  unfold State.assertPresent; (repeat' split) <;> simp
@[simp] theorem State.assertPresent_bench_returnQueue (s : State) : (s.assertPresent).bench.returnQueue = s.bench.returnQueue := by
  unfold State.assertPresent; (repeat' split) <;> simp
@[simp] theorem State.assertPresent_bench_window (s : State) : (s.assertPresent).bench.window = s.bench.window := by
  unfold State.assertPresent; (repeat' split) <;> simp
@[simp] theorem State.assertPresent_bench_order (s : State) : (s.assertPresent).bench.order = s.bench.order := by
  unfold State.assertPresent; (repeat' split) <;> simp
@[simp] theorem State.assertPresent_bench_pointer (s : State) : (s.assertPresent).bench.pointer = s.bench.pointer := by
  unfold State.assertPresent; (repeat' split) <;> simp
@[simp] theorem State.assertPresent_bench_stream (s : State) : (s.assertPresent).bench.stream = s.bench.stream := by
  unfold State.assertPresent; (repeat' split) <;> simp
@[simp] theorem State.assertPresent_bench_lastOutcome (s : State) : (s.assertPresent).bench.lastOutcome = s.bench.lastOutcome := by
  unfold State.assertPresent; (repeat' split) <;> simp
@[simp] theorem State.assertPresent_bench_enables (s : State) : (s.assertPresent).bench.enables = s.bench.enables := by
  unfold State.assertPresent; (repeat' split) <;> simp
@[simp] theorem State.assertPresent_bench_selected (s : State) : (s.assertPresent).bench.selected = s.bench.selected := by
  unfold State.assertPresent; (repeat' split) <;> simp
@[simp] theorem State.assertPresent_bench_out (s : State) : (s.assertPresent).bench.out = s.bench.out := by
  unfold State.assertPresent; (repeat' split) <;> simp
@[simp] theorem State.assertPresent_runs_active (s : State) : (s.assertPresent).runs.active = s.runs.active := by
  unfold State.assertPresent; (repeat' split) <;> simp
@[simp] theorem State.assertPresent_runs_results (s : State) : (s.assertPresent).runs.results = s.runs.results := by
  unfold State.assertPresent; (repeat' split) <;> simp
@[simp] theorem State.assertPresent_runs_serial (s : State) : (s.assertPresent).runs.serial = s.runs.serial := by
  unfold State.assertPresent; (repeat' split) <;> simp

/-! ### seePresent -/

@[simp] theorem State.seePresent_map (s : State) : (s.seePresent).map = s.map := by
  unfold State.seePresent; (repeat' split) <;> simp
@[simp] theorem State.seePresent_publishing (s : State) : (s.seePresent).publishing = s.publishing := by
  unfold State.seePresent; (repeat' split) <;> simp
@[simp] theorem State.seePresent_settings (s : State) : (s.seePresent).settings = s.settings := by
  unfold State.seePresent; (repeat' split) <;> simp
@[simp] theorem State.seePresent_sweep (s : State) : (s.seePresent).sweep = s.sweep := by
  unfold State.seePresent; (repeat' split) <;> simp
@[simp] theorem State.seePresent_capture (s : State) : (s.seePresent).capture = s.capture := by
  unfold State.seePresent; (repeat' split) <;> simp
@[simp] theorem State.seePresent_index (s : State) : (s.seePresent).index = s.index := by
  unfold State.seePresent; (repeat' split) <;> simp
@[simp] theorem State.seePresent_held (s : State) : (s.seePresent).held = s.held := by
  unfold State.seePresent; (repeat' split) <;> simp
@[simp] theorem State.seePresent_autoRequests (s : State) : (s.seePresent).autoRequests = s.autoRequests := by
  unfold State.seePresent; (repeat' split) <;> simp
@[simp] theorem State.seePresent_ff (s : State) : (s.seePresent).ff = s.ff := by
  unfold State.seePresent; (repeat' split) <;> simp
@[simp] theorem State.seePresent_exclusions (s : State) : (s.seePresent).exclusions = s.exclusions := by
  unfold State.seePresent; (repeat' split) <;> simp
@[simp] theorem State.seePresent_perms (s : State) : (s.seePresent).perms = s.perms := by
  unfold State.seePresent; (repeat' split) <;> simp
@[simp] theorem State.seePresent_publishAtOnce (s : State) : (s.seePresent).publishAtOnce = s.publishAtOnce := by
  unfold State.seePresent; (repeat' split) <;> simp
@[simp] theorem State.seePresent_autoOrder (s : State) : (s.seePresent).autoOrder = s.autoOrder := by
  unfold State.seePresent; (repeat' split) <;> simp
@[simp] theorem State.seePresent_pending (s : State) : (s.seePresent).pending = s.pending := by
  unfold State.seePresent; (repeat' split) <;> simp
@[simp] theorem State.seePresent_bench_assembly (s : State) : (s.seePresent).bench.assembly = s.bench.assembly := by
  unfold State.seePresent; (repeat' split) <;> simp
@[simp] theorem State.seePresent_bench_returnQueue (s : State) : (s.seePresent).bench.returnQueue = s.bench.returnQueue := by
  unfold State.seePresent; (repeat' split) <;> simp
@[simp] theorem State.seePresent_bench_window (s : State) : (s.seePresent).bench.window = s.bench.window := by
  unfold State.seePresent; (repeat' split) <;> simp
@[simp] theorem State.seePresent_bench_order (s : State) : (s.seePresent).bench.order = s.bench.order := by
  unfold State.seePresent; (repeat' split) <;> simp
@[simp] theorem State.seePresent_bench_pointer (s : State) : (s.seePresent).bench.pointer = s.bench.pointer := by
  unfold State.seePresent; (repeat' split) <;> simp
@[simp] theorem State.seePresent_bench_stream (s : State) : (s.seePresent).bench.stream = s.bench.stream := by
  unfold State.seePresent; (repeat' split) <;> simp
@[simp] theorem State.seePresent_bench_lastOutcome (s : State) : (s.seePresent).bench.lastOutcome = s.bench.lastOutcome := by
  unfold State.seePresent; (repeat' split) <;> simp
@[simp] theorem State.seePresent_bench_enables (s : State) : (s.seePresent).bench.enables = s.bench.enables := by
  unfold State.seePresent; (repeat' split) <;> simp
@[simp] theorem State.seePresent_bench_selected (s : State) : (s.seePresent).bench.selected = s.bench.selected := by
  unfold State.seePresent; (repeat' split) <;> simp
@[simp] theorem State.seePresent_bench_out (s : State) : (s.seePresent).bench.out = s.bench.out := by
  unfold State.seePresent; (repeat' split) <;> simp
@[simp] theorem State.seePresent_runs_active (s : State) : (s.seePresent).runs.active = s.runs.active := by
  unfold State.seePresent; (repeat' split) <;> simp
@[simp] theorem State.seePresent_runs_results (s : State) : (s.seePresent).runs.results = s.runs.results := by
  unfold State.seePresent; (repeat' split) <;> simp
@[simp] theorem State.seePresent_runs_serial (s : State) : (s.seePresent).runs.serial = s.runs.serial := by
  unfold State.seePresent; (repeat' split) <;> simp

/-! ### closePresence -/

@[simp] theorem State.closePresence_map (s : State) : (s.closePresence).map = s.map := by
  unfold State.closePresence; (repeat' split) <;> simp
@[simp] theorem State.closePresence_publishing (s : State) : (s.closePresence).publishing = s.publishing := by
  unfold State.closePresence; (repeat' split) <;> simp
@[simp] theorem State.closePresence_settings (s : State) : (s.closePresence).settings = s.settings := by
  unfold State.closePresence; (repeat' split) <;> simp
@[simp] theorem State.closePresence_sweep (s : State) : (s.closePresence).sweep = s.sweep := by
  unfold State.closePresence; (repeat' split) <;> simp
@[simp] theorem State.closePresence_capture (s : State) : (s.closePresence).capture = s.capture := by
  unfold State.closePresence; (repeat' split) <;> simp
@[simp] theorem State.closePresence_index (s : State) : (s.closePresence).index = s.index := by
  unfold State.closePresence; (repeat' split) <;> simp
@[simp] theorem State.closePresence_held (s : State) : (s.closePresence).held = s.held := by
  unfold State.closePresence; (repeat' split) <;> simp
@[simp] theorem State.closePresence_autoRequests (s : State) : (s.closePresence).autoRequests = s.autoRequests := by
  unfold State.closePresence; (repeat' split) <;> simp
@[simp] theorem State.closePresence_ff (s : State) : (s.closePresence).ff = s.ff := by
  unfold State.closePresence; (repeat' split) <;> simp
@[simp] theorem State.closePresence_exclusions (s : State) : (s.closePresence).exclusions = s.exclusions := by
  unfold State.closePresence; (repeat' split) <;> simp
@[simp] theorem State.closePresence_perms (s : State) : (s.closePresence).perms = s.perms := by
  unfold State.closePresence; (repeat' split) <;> simp
@[simp] theorem State.closePresence_publishAtOnce (s : State) : (s.closePresence).publishAtOnce = s.publishAtOnce := by
  unfold State.closePresence; (repeat' split) <;> simp
@[simp] theorem State.closePresence_autoOrder (s : State) : (s.closePresence).autoOrder = s.autoOrder := by
  unfold State.closePresence; (repeat' split) <;> simp
@[simp] theorem State.closePresence_pending (s : State) : (s.closePresence).pending = s.pending := by
  unfold State.closePresence; (repeat' split) <;> simp
@[simp] theorem State.closePresence_bench_assembly (s : State) : (s.closePresence).bench.assembly = s.bench.assembly := by
  unfold State.closePresence; (repeat' split) <;> simp
@[simp] theorem State.closePresence_bench_returnQueue (s : State) : (s.closePresence).bench.returnQueue = s.bench.returnQueue := by
  unfold State.closePresence; (repeat' split) <;> simp
@[simp] theorem State.closePresence_bench_window (s : State) : (s.closePresence).bench.window = s.bench.window := by
  unfold State.closePresence; (repeat' split) <;> simp
@[simp] theorem State.closePresence_bench_order (s : State) : (s.closePresence).bench.order = s.bench.order := by
  unfold State.closePresence; (repeat' split) <;> simp
@[simp] theorem State.closePresence_bench_pointer (s : State) : (s.closePresence).bench.pointer = s.bench.pointer := by
  unfold State.closePresence; (repeat' split) <;> simp
@[simp] theorem State.closePresence_bench_stream (s : State) : (s.closePresence).bench.stream = s.bench.stream := by
  unfold State.closePresence; (repeat' split) <;> simp
@[simp] theorem State.closePresence_bench_lastOutcome (s : State) : (s.closePresence).bench.lastOutcome = s.bench.lastOutcome := by
  unfold State.closePresence; (repeat' split) <;> simp
@[simp] theorem State.closePresence_bench_enables (s : State) : (s.closePresence).bench.enables = s.bench.enables := by
  unfold State.closePresence; (repeat' split) <;> simp
@[simp] theorem State.closePresence_bench_selected (s : State) : (s.closePresence).bench.selected = s.bench.selected := by
  unfold State.closePresence; (repeat' split) <;> simp
@[simp] theorem State.closePresence_bench_out (s : State) : (s.closePresence).bench.out = s.bench.out := by
  unfold State.closePresence; (repeat' split) <;> simp
@[simp] theorem State.closePresence_runs_active (s : State) : (s.closePresence).runs.active = s.runs.active := by
  unfold State.closePresence; (repeat' split) <;> simp
@[simp] theorem State.closePresence_runs_results (s : State) : (s.closePresence).runs.results = s.runs.results := by
  unfold State.closePresence; (repeat' split) <;> simp
@[simp] theorem State.closePresence_runs_serial (s : State) : (s.closePresence).runs.serial = s.runs.serial := by
  unfold State.closePresence; (repeat' split) <;> simp

/-! ### seePassed -/

@[simp] theorem State.seePassed_map (s : State) : (s.seePassed).map = s.map := by
  unfold State.seePassed; (repeat' split) <;> simp
@[simp] theorem State.seePassed_publishing (s : State) : (s.seePassed).publishing = s.publishing := by
  unfold State.seePassed; (repeat' split) <;> simp
@[simp] theorem State.seePassed_settings (s : State) : (s.seePassed).settings = s.settings := by
  unfold State.seePassed; (repeat' split) <;> simp
@[simp] theorem State.seePassed_sweep (s : State) : (s.seePassed).sweep = s.sweep := by
  unfold State.seePassed; (repeat' split) <;> simp
@[simp] theorem State.seePassed_capture (s : State) : (s.seePassed).capture = s.capture := by
  unfold State.seePassed; (repeat' split) <;> simp
@[simp] theorem State.seePassed_index (s : State) : (s.seePassed).index = s.index := by
  unfold State.seePassed; (repeat' split) <;> simp
@[simp] theorem State.seePassed_held (s : State) : (s.seePassed).held = s.held := by
  unfold State.seePassed; (repeat' split) <;> simp
@[simp] theorem State.seePassed_autoRequests (s : State) : (s.seePassed).autoRequests = s.autoRequests := by
  unfold State.seePassed; (repeat' split) <;> simp
@[simp] theorem State.seePassed_ff (s : State) : (s.seePassed).ff = s.ff := by
  unfold State.seePassed; (repeat' split) <;> simp
@[simp] theorem State.seePassed_exclusions (s : State) : (s.seePassed).exclusions = s.exclusions := by
  unfold State.seePassed; (repeat' split) <;> simp
@[simp] theorem State.seePassed_perms (s : State) : (s.seePassed).perms = s.perms := by
  unfold State.seePassed; (repeat' split) <;> simp
@[simp] theorem State.seePassed_publishAtOnce (s : State) : (s.seePassed).publishAtOnce = s.publishAtOnce := by
  unfold State.seePassed; (repeat' split) <;> simp
@[simp] theorem State.seePassed_autoOrder (s : State) : (s.seePassed).autoOrder = s.autoOrder := by
  unfold State.seePassed; (repeat' split) <;> simp
@[simp] theorem State.seePassed_pending (s : State) : (s.seePassed).pending = s.pending := by
  unfold State.seePassed; (repeat' split) <;> simp
@[simp] theorem State.seePassed_bench_assembly (s : State) : (s.seePassed).bench.assembly = s.bench.assembly := by
  unfold State.seePassed; (repeat' split) <;> simp
@[simp] theorem State.seePassed_bench_returnQueue (s : State) : (s.seePassed).bench.returnQueue = s.bench.returnQueue := by
  unfold State.seePassed; (repeat' split) <;> simp
@[simp] theorem State.seePassed_bench_window (s : State) : (s.seePassed).bench.window = s.bench.window := by
  unfold State.seePassed; (repeat' split) <;> simp
@[simp] theorem State.seePassed_bench_order (s : State) : (s.seePassed).bench.order = s.bench.order := by
  unfold State.seePassed; (repeat' split) <;> simp
@[simp] theorem State.seePassed_bench_pointer (s : State) : (s.seePassed).bench.pointer = s.bench.pointer := by
  unfold State.seePassed; (repeat' split) <;> simp
@[simp] theorem State.seePassed_bench_stream (s : State) : (s.seePassed).bench.stream = s.bench.stream := by
  unfold State.seePassed; (repeat' split) <;> simp
@[simp] theorem State.seePassed_bench_lastOutcome (s : State) : (s.seePassed).bench.lastOutcome = s.bench.lastOutcome := by
  unfold State.seePassed; (repeat' split) <;> simp
@[simp] theorem State.seePassed_bench_enables (s : State) : (s.seePassed).bench.enables = s.bench.enables := by
  unfold State.seePassed; (repeat' split) <;> simp
@[simp] theorem State.seePassed_bench_selected (s : State) : (s.seePassed).bench.selected = s.bench.selected := by
  unfold State.seePassed; (repeat' split) <;> simp
@[simp] theorem State.seePassed_bench_out (s : State) : (s.seePassed).bench.out = s.bench.out := by
  unfold State.seePassed; (repeat' split) <;> simp
@[simp] theorem State.seePassed_runs_active (s : State) : (s.seePassed).runs.active = s.runs.active := by
  unfold State.seePassed; (repeat' split) <;> simp
@[simp] theorem State.seePassed_runs_results (s : State) : (s.seePassed).runs.results = s.runs.results := by
  unfold State.seePassed; (repeat' split) <;> simp
@[simp] theorem State.seePassed_runs_serial (s : State) : (s.seePassed).runs.serial = s.runs.serial := by
  unfold State.seePassed; (repeat' split) <;> simp

/-! ### pairTimeout -/

@[simp] theorem State.pairTimeout_map (s : State) : (s.pairTimeout).map = s.map := by
  unfold State.pairTimeout; (repeat' split) <;> simp
@[simp] theorem State.pairTimeout_publishing (s : State) : (s.pairTimeout).publishing = s.publishing := by
  unfold State.pairTimeout; (repeat' split) <;> simp
@[simp] theorem State.pairTimeout_settings (s : State) : (s.pairTimeout).settings = s.settings := by
  unfold State.pairTimeout; (repeat' split) <;> simp
@[simp] theorem State.pairTimeout_sweep (s : State) : (s.pairTimeout).sweep = s.sweep := by
  unfold State.pairTimeout; (repeat' split) <;> simp
@[simp] theorem State.pairTimeout_capture (s : State) : (s.pairTimeout).capture = s.capture := by
  unfold State.pairTimeout; (repeat' split) <;> simp
@[simp] theorem State.pairTimeout_index (s : State) : (s.pairTimeout).index = s.index := by
  unfold State.pairTimeout; (repeat' split) <;> simp
@[simp] theorem State.pairTimeout_held (s : State) : (s.pairTimeout).held = s.held := by
  unfold State.pairTimeout; (repeat' split) <;> simp
@[simp] theorem State.pairTimeout_autoRequests (s : State) : (s.pairTimeout).autoRequests = s.autoRequests := by
  unfold State.pairTimeout; (repeat' split) <;> simp
@[simp] theorem State.pairTimeout_ff (s : State) : (s.pairTimeout).ff = s.ff := by
  unfold State.pairTimeout; (repeat' split) <;> simp
@[simp] theorem State.pairTimeout_exclusions (s : State) : (s.pairTimeout).exclusions = s.exclusions := by
  unfold State.pairTimeout; (repeat' split) <;> simp
@[simp] theorem State.pairTimeout_perms (s : State) : (s.pairTimeout).perms = s.perms := by
  unfold State.pairTimeout; (repeat' split) <;> simp
@[simp] theorem State.pairTimeout_publishAtOnce (s : State) : (s.pairTimeout).publishAtOnce = s.publishAtOnce := by
  unfold State.pairTimeout; (repeat' split) <;> simp
@[simp] theorem State.pairTimeout_autoOrder (s : State) : (s.pairTimeout).autoOrder = s.autoOrder := by
  unfold State.pairTimeout; (repeat' split) <;> simp
@[simp] theorem State.pairTimeout_pending (s : State) : (s.pairTimeout).pending = s.pending := by
  unfold State.pairTimeout; (repeat' split) <;> simp
@[simp] theorem State.pairTimeout_bench_assembly (s : State) : (s.pairTimeout).bench.assembly = s.bench.assembly := by
  unfold State.pairTimeout; (repeat' split) <;> simp
@[simp] theorem State.pairTimeout_bench_returnQueue (s : State) : (s.pairTimeout).bench.returnQueue = s.bench.returnQueue := by
  unfold State.pairTimeout; (repeat' split) <;> simp
@[simp] theorem State.pairTimeout_bench_window (s : State) : (s.pairTimeout).bench.window = s.bench.window := by
  unfold State.pairTimeout; (repeat' split) <;> simp
@[simp] theorem State.pairTimeout_bench_order (s : State) : (s.pairTimeout).bench.order = s.bench.order := by
  unfold State.pairTimeout; (repeat' split) <;> simp
@[simp] theorem State.pairTimeout_bench_pointer (s : State) : (s.pairTimeout).bench.pointer = s.bench.pointer := by
  unfold State.pairTimeout; (repeat' split) <;> simp
@[simp] theorem State.pairTimeout_bench_stream (s : State) : (s.pairTimeout).bench.stream = s.bench.stream := by
  unfold State.pairTimeout; (repeat' split) <;> simp
@[simp] theorem State.pairTimeout_bench_lastOutcome (s : State) : (s.pairTimeout).bench.lastOutcome = s.bench.lastOutcome := by
  unfold State.pairTimeout; (repeat' split) <;> simp
@[simp] theorem State.pairTimeout_bench_enables (s : State) : (s.pairTimeout).bench.enables = s.bench.enables := by
  unfold State.pairTimeout; (repeat' split) <;> simp
@[simp] theorem State.pairTimeout_bench_selected (s : State) : (s.pairTimeout).bench.selected = s.bench.selected := by
  unfold State.pairTimeout; (repeat' split) <;> simp
@[simp] theorem State.pairTimeout_bench_out (s : State) : (s.pairTimeout).bench.out = s.bench.out := by
  unfold State.pairTimeout; (repeat' split) <;> simp
@[simp] theorem State.pairTimeout_runs_active (s : State) : (s.pairTimeout).runs.active = s.runs.active := by
  unfold State.pairTimeout; (repeat' split) <;> simp
@[simp] theorem State.pairTimeout_runs_results (s : State) : (s.pairTimeout).runs.results = s.runs.results := by
  unfold State.pairTimeout; (repeat' split) <;> simp
@[simp] theorem State.pairTimeout_runs_serial (s : State) : (s.pairTimeout).runs.serial = s.runs.serial := by
  unfold State.pairTimeout; (repeat' split) <;> simp

/-! ### endMemoryTest -/

@[simp] theorem State.endMemoryTest_publishing (s : State) (own : MemoryResult) : (s.endMemoryTest own).publishing = s.publishing := by
  unfold State.endMemoryTest; (repeat' split) <;> simp
@[simp] theorem State.endMemoryTest_settings (s : State) (own : MemoryResult) : (s.endMemoryTest own).settings = s.settings := by
  unfold State.endMemoryTest; (repeat' split) <;> simp
@[simp] theorem State.endMemoryTest_capture (s : State) (own : MemoryResult) : (s.endMemoryTest own).capture = s.capture := by
  unfold State.endMemoryTest; (repeat' split) <;> simp
@[simp] theorem State.endMemoryTest_index (s : State) (own : MemoryResult) : (s.endMemoryTest own).index = s.index := by
  unfold State.endMemoryTest; (repeat' split) <;> simp
@[simp] theorem State.endMemoryTest_held (s : State) (own : MemoryResult) : (s.endMemoryTest own).held = s.held := by
  unfold State.endMemoryTest; (repeat' split) <;> simp
@[simp] theorem State.endMemoryTest_autoRequests (s : State) (own : MemoryResult) : (s.endMemoryTest own).autoRequests = s.autoRequests := by
  unfold State.endMemoryTest; (repeat' split) <;> simp
@[simp] theorem State.endMemoryTest_runs (s : State) (own : MemoryResult) : (s.endMemoryTest own).runs = s.runs := by
  unfold State.endMemoryTest; (repeat' split) <;> simp
@[simp] theorem State.endMemoryTest_ff (s : State) (own : MemoryResult) : (s.endMemoryTest own).ff = s.ff := by
  unfold State.endMemoryTest; (repeat' split) <;> simp
@[simp] theorem State.endMemoryTest_perms (s : State) (own : MemoryResult) : (s.endMemoryTest own).perms = s.perms := by
  unfold State.endMemoryTest; (repeat' split) <;> simp
@[simp] theorem State.endMemoryTest_bench (s : State) (own : MemoryResult) : (s.endMemoryTest own).bench = s.bench := by
  unfold State.endMemoryTest; (repeat' split) <;> simp
@[simp] theorem State.endMemoryTest_publishAtOnce (s : State) (own : MemoryResult) : (s.endMemoryTest own).publishAtOnce = s.publishAtOnce := by
  unfold State.endMemoryTest; (repeat' split) <;> simp
@[simp] theorem State.endMemoryTest_autoOrder (s : State) (own : MemoryResult) : (s.endMemoryTest own).autoOrder = s.autoOrder := by
  unfold State.endMemoryTest; (repeat' split) <;> simp
@[simp] theorem State.endMemoryTest_pending (s : State) (own : MemoryResult) : (s.endMemoryTest own).pending = s.pending := by
  unfold State.endMemoryTest; (repeat' split) <;> simp

/-! ### captureOverrun -/

@[simp] theorem State.captureOverrun_map (s : State) : (s.captureOverrun).map = s.map := by
  unfold State.captureOverrun; simp
@[simp] theorem State.captureOverrun_profiles (s : State) : (s.captureOverrun).profiles = s.profiles := by
  unfold State.captureOverrun; simp
@[simp] theorem State.captureOverrun_publishing (s : State) : (s.captureOverrun).publishing = s.publishing := by
  unfold State.captureOverrun; simp
@[simp] theorem State.captureOverrun_settings (s : State) : (s.captureOverrun).settings = s.settings := by
  unfold State.captureOverrun; simp
@[simp] theorem State.captureOverrun_sweep (s : State) : (s.captureOverrun).sweep = s.sweep := by
  unfold State.captureOverrun; simp
@[simp] theorem State.captureOverrun_index (s : State) : (s.captureOverrun).index = s.index := by
  unfold State.captureOverrun; simp
@[simp] theorem State.captureOverrun_held (s : State) : (s.captureOverrun).held = s.held := by
  unfold State.captureOverrun; simp
@[simp] theorem State.captureOverrun_autoRequests (s : State) : (s.captureOverrun).autoRequests = s.autoRequests := by
  unfold State.captureOverrun; simp
@[simp] theorem State.captureOverrun_ff (s : State) : (s.captureOverrun).ff = s.ff := by
  unfold State.captureOverrun; simp
@[simp] theorem State.captureOverrun_exclusions (s : State) : (s.captureOverrun).exclusions = s.exclusions := by
  unfold State.captureOverrun; simp
@[simp] theorem State.captureOverrun_perms (s : State) : (s.captureOverrun).perms = s.perms := by
  unfold State.captureOverrun; simp
@[simp] theorem State.captureOverrun_startup (s : State) : (s.captureOverrun).startup = s.startup := by
  unfold State.captureOverrun; simp
@[simp] theorem State.captureOverrun_publishAtOnce (s : State) : (s.captureOverrun).publishAtOnce = s.publishAtOnce := by
  unfold State.captureOverrun; simp
@[simp] theorem State.captureOverrun_autoOrder (s : State) : (s.captureOverrun).autoOrder = s.autoOrder := by
  unfold State.captureOverrun; simp
@[simp] theorem State.captureOverrun_pending (s : State) : (s.captureOverrun).pending = s.pending := by
  unfold State.captureOverrun; simp
@[simp] theorem State.captureOverrun_bench_assembly (s : State) : (s.captureOverrun).bench.assembly = s.bench.assembly := by
  unfold State.captureOverrun; simp
@[simp] theorem State.captureOverrun_bench_returnQueue (s : State) : (s.captureOverrun).bench.returnQueue = s.bench.returnQueue := by
  unfold State.captureOverrun; simp
@[simp] theorem State.captureOverrun_bench_window (s : State) : (s.captureOverrun).bench.window = s.bench.window := by
  unfold State.captureOverrun; simp
@[simp] theorem State.captureOverrun_bench_order (s : State) : (s.captureOverrun).bench.order = s.bench.order := by
  unfold State.captureOverrun; simp
@[simp] theorem State.captureOverrun_bench_pointer (s : State) : (s.captureOverrun).bench.pointer = s.bench.pointer := by
  unfold State.captureOverrun; simp
@[simp] theorem State.captureOverrun_bench_stream (s : State) : (s.captureOverrun).bench.stream = s.bench.stream := by
  unfold State.captureOverrun; simp
@[simp] theorem State.captureOverrun_bench_lastOutcome (s : State) : (s.captureOverrun).bench.lastOutcome = s.bench.lastOutcome := by
  unfold State.captureOverrun; simp
@[simp] theorem State.captureOverrun_bench_enables (s : State) : (s.captureOverrun).bench.enables = s.bench.enables := by
  unfold State.captureOverrun; simp
@[simp] theorem State.captureOverrun_bench_selected (s : State) : (s.captureOverrun).bench.selected = s.bench.selected := by
  unfold State.captureOverrun; simp
@[simp] theorem State.captureOverrun_bench_out (s : State) : (s.captureOverrun).bench.out = s.bench.out := by
  unfold State.captureOverrun; simp
@[simp] theorem State.captureOverrun_runs_queue (s : State) : (s.captureOverrun).runs.queue = s.runs.queue := by
  unfold State.captureOverrun; simp
@[simp] theorem State.captureOverrun_runs_results (s : State) : (s.captureOverrun).runs.results = s.runs.results := by
  unfold State.captureOverrun; simp
@[simp] theorem State.captureOverrun_runs_serial (s : State) : (s.captureOverrun).runs.serial = s.runs.serial := by
  unfold State.captureOverrun; simp

/-! ### queueRecord -/

@[simp] theorem State.queueRecord_map (s : State) (r : Record) : (s.queueRecord r).map = s.map := by
  unfold State.queueRecord; (repeat' split) <;> simp
@[simp] theorem State.queueRecord_profiles (s : State) (r : Record) : (s.queueRecord r).profiles = s.profiles := by
  unfold State.queueRecord; (repeat' split) <;> simp
@[simp] theorem State.queueRecord_publishing (s : State) (r : Record) : (s.queueRecord r).publishing = s.publishing := by
  unfold State.queueRecord; (repeat' split) <;> simp
@[simp] theorem State.queueRecord_settings (s : State) (r : Record) : (s.queueRecord r).settings = s.settings := by
  unfold State.queueRecord; (repeat' split) <;> simp
@[simp] theorem State.queueRecord_sweep (s : State) (r : Record) : (s.queueRecord r).sweep = s.sweep := by
  unfold State.queueRecord; (repeat' split) <;> simp
@[simp] theorem State.queueRecord_index (s : State) (r : Record) : (s.queueRecord r).index = s.index := by
  unfold State.queueRecord; (repeat' split) <;> simp
@[simp] theorem State.queueRecord_held (s : State) (r : Record) : (s.queueRecord r).held = s.held := by
  unfold State.queueRecord; (repeat' split) <;> simp
@[simp] theorem State.queueRecord_autoRequests (s : State) (r : Record) : (s.queueRecord r).autoRequests = s.autoRequests := by
  unfold State.queueRecord; (repeat' split) <;> simp
@[simp] theorem State.queueRecord_ff (s : State) (r : Record) : (s.queueRecord r).ff = s.ff := by
  unfold State.queueRecord; (repeat' split) <;> simp
@[simp] theorem State.queueRecord_exclusions (s : State) (r : Record) : (s.queueRecord r).exclusions = s.exclusions := by
  unfold State.queueRecord; (repeat' split) <;> simp
@[simp] theorem State.queueRecord_perms (s : State) (r : Record) : (s.queueRecord r).perms = s.perms := by
  unfold State.queueRecord; (repeat' split) <;> simp
@[simp] theorem State.queueRecord_startup (s : State) (r : Record) : (s.queueRecord r).startup = s.startup := by
  unfold State.queueRecord; (repeat' split) <;> simp
@[simp] theorem State.queueRecord_publishAtOnce (s : State) (r : Record) : (s.queueRecord r).publishAtOnce = s.publishAtOnce := by
  unfold State.queueRecord; (repeat' split) <;> simp
@[simp] theorem State.queueRecord_autoOrder (s : State) (r : Record) : (s.queueRecord r).autoOrder = s.autoOrder := by
  unfold State.queueRecord; (repeat' split) <;> simp
@[simp] theorem State.queueRecord_pending (s : State) (r : Record) : (s.queueRecord r).pending = s.pending := by
  unfold State.queueRecord; (repeat' split) <;> simp
@[simp] theorem State.queueRecord_bench_assembly (s : State) (r : Record) : (s.queueRecord r).bench.assembly = s.bench.assembly := by
  unfold State.queueRecord; (repeat' split) <;> simp
@[simp] theorem State.queueRecord_bench_returnQueue (s : State) (r : Record) : (s.queueRecord r).bench.returnQueue = s.bench.returnQueue := by
  unfold State.queueRecord; (repeat' split) <;> simp
@[simp] theorem State.queueRecord_bench_window (s : State) (r : Record) : (s.queueRecord r).bench.window = s.bench.window := by
  unfold State.queueRecord; (repeat' split) <;> simp
@[simp] theorem State.queueRecord_bench_order (s : State) (r : Record) : (s.queueRecord r).bench.order = s.bench.order := by
  unfold State.queueRecord; (repeat' split) <;> simp
@[simp] theorem State.queueRecord_bench_pointer (s : State) (r : Record) : (s.queueRecord r).bench.pointer = s.bench.pointer := by
  unfold State.queueRecord; (repeat' split) <;> simp
@[simp] theorem State.queueRecord_bench_stream (s : State) (r : Record) : (s.queueRecord r).bench.stream = s.bench.stream := by
  unfold State.queueRecord; (repeat' split) <;> simp
@[simp] theorem State.queueRecord_bench_lastOutcome (s : State) (r : Record) : (s.queueRecord r).bench.lastOutcome = s.bench.lastOutcome := by
  unfold State.queueRecord; (repeat' split) <;> simp
@[simp] theorem State.queueRecord_bench_enables (s : State) (r : Record) : (s.queueRecord r).bench.enables = s.bench.enables := by
  unfold State.queueRecord; (repeat' split) <;> simp
@[simp] theorem State.queueRecord_bench_selected (s : State) (r : Record) : (s.queueRecord r).bench.selected = s.bench.selected := by
  unfold State.queueRecord; (repeat' split) <;> simp
@[simp] theorem State.queueRecord_bench_out (s : State) (r : Record) : (s.queueRecord r).bench.out = s.bench.out := by
  unfold State.queueRecord; (repeat' split) <;> simp
@[simp] theorem State.queueRecord_runs_queue (s : State) (r : Record) : (s.queueRecord r).runs.queue = s.runs.queue := by
  unfold State.queueRecord; (repeat' split) <;> simp
@[simp] theorem State.queueRecord_runs_results (s : State) (r : Record) : (s.queueRecord r).runs.results = s.runs.results := by
  unfold State.queueRecord; (repeat' split) <;> simp
@[simp] theorem State.queueRecord_runs_serial (s : State) (r : Record) : (s.queueRecord r).runs.serial = s.runs.serial := by
  unfold State.queueRecord; (repeat' split) <;> simp

/-! ### checkFrame -/

@[simp] theorem State.checkFrame_map (s : State) (f : List Word) : (s.checkFrame f).map = s.map := by
  unfold State.checkFrame; dsimp only; (repeat' split) <;> simp
@[simp] theorem State.checkFrame_profiles (s : State) (f : List Word) : (s.checkFrame f).profiles = s.profiles := by
  unfold State.checkFrame; dsimp only; (repeat' split) <;> simp
@[simp] theorem State.checkFrame_publishing (s : State) (f : List Word) : (s.checkFrame f).publishing = s.publishing := by
  unfold State.checkFrame; dsimp only; (repeat' split) <;> simp
@[simp] theorem State.checkFrame_settings (s : State) (f : List Word) : (s.checkFrame f).settings = s.settings := by
  unfold State.checkFrame; dsimp only; (repeat' split) <;> simp
@[simp] theorem State.checkFrame_sweep (s : State) (f : List Word) : (s.checkFrame f).sweep = s.sweep := by
  unfold State.checkFrame; dsimp only; (repeat' split) <;> simp
@[simp] theorem State.checkFrame_index (s : State) (f : List Word) : (s.checkFrame f).index = s.index := by
  unfold State.checkFrame; dsimp only; (repeat' split) <;> simp
@[simp] theorem State.checkFrame_held (s : State) (f : List Word) : (s.checkFrame f).held = s.held := by
  unfold State.checkFrame; dsimp only; (repeat' split) <;> simp
@[simp] theorem State.checkFrame_autoRequests (s : State) (f : List Word) : (s.checkFrame f).autoRequests = s.autoRequests := by
  unfold State.checkFrame; dsimp only; (repeat' split) <;> simp
@[simp] theorem State.checkFrame_ff (s : State) (f : List Word) : (s.checkFrame f).ff = s.ff := by
  unfold State.checkFrame; dsimp only; (repeat' split) <;> simp
@[simp] theorem State.checkFrame_exclusions (s : State) (f : List Word) : (s.checkFrame f).exclusions = s.exclusions := by
  unfold State.checkFrame; dsimp only; (repeat' split) <;> simp
@[simp] theorem State.checkFrame_perms (s : State) (f : List Word) : (s.checkFrame f).perms = s.perms := by
  unfold State.checkFrame; dsimp only; (repeat' split) <;> simp
@[simp] theorem State.checkFrame_startup (s : State) (f : List Word) : (s.checkFrame f).startup = s.startup := by
  unfold State.checkFrame; dsimp only; (repeat' split) <;> simp
@[simp] theorem State.checkFrame_publishAtOnce (s : State) (f : List Word) : (s.checkFrame f).publishAtOnce = s.publishAtOnce := by
  unfold State.checkFrame; dsimp only; (repeat' split) <;> simp
@[simp] theorem State.checkFrame_autoOrder (s : State) (f : List Word) : (s.checkFrame f).autoOrder = s.autoOrder := by
  unfold State.checkFrame; dsimp only; (repeat' split) <;> simp
@[simp] theorem State.checkFrame_pending (s : State) (f : List Word) : (s.checkFrame f).pending = s.pending := by
  unfold State.checkFrame; dsimp only; (repeat' split) <;> simp
@[simp] theorem State.checkFrame_bench_assembly (s : State) (f : List Word) : (s.checkFrame f).bench.assembly = s.bench.assembly := by
  unfold State.checkFrame; dsimp only; (repeat' split) <;> simp
@[simp] theorem State.checkFrame_bench_returnQueue (s : State) (f : List Word) : (s.checkFrame f).bench.returnQueue = s.bench.returnQueue := by
  unfold State.checkFrame; dsimp only; (repeat' split) <;> simp
@[simp] theorem State.checkFrame_bench_window (s : State) (f : List Word) : (s.checkFrame f).bench.window = s.bench.window := by
  unfold State.checkFrame; dsimp only; (repeat' split) <;> simp
@[simp] theorem State.checkFrame_bench_order (s : State) (f : List Word) : (s.checkFrame f).bench.order = s.bench.order := by
  unfold State.checkFrame; dsimp only; (repeat' split) <;> simp
@[simp] theorem State.checkFrame_bench_pointer (s : State) (f : List Word) : (s.checkFrame f).bench.pointer = s.bench.pointer := by
  unfold State.checkFrame; dsimp only; (repeat' split) <;> simp
@[simp] theorem State.checkFrame_bench_stream (s : State) (f : List Word) : (s.checkFrame f).bench.stream = s.bench.stream := by
  unfold State.checkFrame; dsimp only; (repeat' split) <;> simp
@[simp] theorem State.checkFrame_bench_lastOutcome (s : State) (f : List Word) : (s.checkFrame f).bench.lastOutcome = s.bench.lastOutcome := by
  unfold State.checkFrame; dsimp only; (repeat' split) <;> simp
@[simp] theorem State.checkFrame_bench_enables (s : State) (f : List Word) : (s.checkFrame f).bench.enables = s.bench.enables := by
  unfold State.checkFrame; dsimp only; (repeat' split) <;> simp
@[simp] theorem State.checkFrame_bench_selected (s : State) (f : List Word) : (s.checkFrame f).bench.selected = s.bench.selected := by
  unfold State.checkFrame; dsimp only; (repeat' split) <;> simp
@[simp] theorem State.checkFrame_bench_out (s : State) (f : List Word) : (s.checkFrame f).bench.out = s.bench.out := by
  unfold State.checkFrame; dsimp only; (repeat' split) <;> simp
@[simp] theorem State.checkFrame_runs_queue (s : State) (f : List Word) : (s.checkFrame f).runs.queue = s.runs.queue := by
  unfold State.checkFrame; dsimp only; (repeat' split) <;> simp
@[simp] theorem State.checkFrame_runs_results (s : State) (f : List Word) : (s.checkFrame f).runs.results = s.runs.results := by
  unfold State.checkFrame; dsimp only; (repeat' split) <;> simp
@[simp] theorem State.checkFrame_runs_serial (s : State) (f : List Word) : (s.checkFrame f).runs.serial = s.runs.serial := by
  unfold State.checkFrame; dsimp only; (repeat' split) <;> simp

/-! ### completeFrame -/

@[simp] theorem State.completeFrame_map (s : State) (f : List Word) : (s.completeFrame f).map = s.map := by
  unfold State.completeFrame; (repeat' split) <;> simp
@[simp] theorem State.completeFrame_profiles (s : State) (f : List Word) : (s.completeFrame f).profiles = s.profiles := by
  unfold State.completeFrame; (repeat' split) <;> simp
@[simp] theorem State.completeFrame_publishing (s : State) (f : List Word) : (s.completeFrame f).publishing = s.publishing := by
  unfold State.completeFrame; (repeat' split) <;> simp
@[simp] theorem State.completeFrame_settings (s : State) (f : List Word) : (s.completeFrame f).settings = s.settings := by
  unfold State.completeFrame; (repeat' split) <;> simp
@[simp] theorem State.completeFrame_sweep (s : State) (f : List Word) : (s.completeFrame f).sweep = s.sweep := by
  unfold State.completeFrame; (repeat' split) <;> simp
@[simp] theorem State.completeFrame_index (s : State) (f : List Word) : (s.completeFrame f).index = s.index := by
  unfold State.completeFrame; (repeat' split) <;> simp
@[simp] theorem State.completeFrame_held (s : State) (f : List Word) : (s.completeFrame f).held = s.held := by
  unfold State.completeFrame; (repeat' split) <;> simp
@[simp] theorem State.completeFrame_autoRequests (s : State) (f : List Word) : (s.completeFrame f).autoRequests = s.autoRequests := by
  unfold State.completeFrame; (repeat' split) <;> simp
@[simp] theorem State.completeFrame_ff (s : State) (f : List Word) : (s.completeFrame f).ff = s.ff := by
  unfold State.completeFrame; (repeat' split) <;> simp
@[simp] theorem State.completeFrame_exclusions (s : State) (f : List Word) : (s.completeFrame f).exclusions = s.exclusions := by
  unfold State.completeFrame; (repeat' split) <;> simp
@[simp] theorem State.completeFrame_perms (s : State) (f : List Word) : (s.completeFrame f).perms = s.perms := by
  unfold State.completeFrame; (repeat' split) <;> simp
@[simp] theorem State.completeFrame_startup (s : State) (f : List Word) : (s.completeFrame f).startup = s.startup := by
  unfold State.completeFrame; (repeat' split) <;> simp
@[simp] theorem State.completeFrame_publishAtOnce (s : State) (f : List Word) : (s.completeFrame f).publishAtOnce = s.publishAtOnce := by
  unfold State.completeFrame; (repeat' split) <;> simp
@[simp] theorem State.completeFrame_autoOrder (s : State) (f : List Word) : (s.completeFrame f).autoOrder = s.autoOrder := by
  unfold State.completeFrame; (repeat' split) <;> simp
@[simp] theorem State.completeFrame_pending (s : State) (f : List Word) : (s.completeFrame f).pending = s.pending := by
  unfold State.completeFrame; (repeat' split) <;> simp
@[simp] theorem State.completeFrame_bench_assembly (s : State) (f : List Word) : (s.completeFrame f).bench.assembly = s.bench.assembly := by
  unfold State.completeFrame; (repeat' split) <;> simp
@[simp] theorem State.completeFrame_bench_returnQueue (s : State) (f : List Word) : (s.completeFrame f).bench.returnQueue = s.bench.returnQueue := by
  unfold State.completeFrame; (repeat' split) <;> simp
@[simp] theorem State.completeFrame_bench_window (s : State) (f : List Word) : (s.completeFrame f).bench.window = s.bench.window := by
  unfold State.completeFrame; (repeat' split) <;> simp
@[simp] theorem State.completeFrame_bench_order (s : State) (f : List Word) : (s.completeFrame f).bench.order = s.bench.order := by
  unfold State.completeFrame; (repeat' split) <;> simp
@[simp] theorem State.completeFrame_bench_pointer (s : State) (f : List Word) : (s.completeFrame f).bench.pointer = s.bench.pointer := by
  unfold State.completeFrame; (repeat' split) <;> simp
@[simp] theorem State.completeFrame_bench_stream (s : State) (f : List Word) : (s.completeFrame f).bench.stream = s.bench.stream := by
  unfold State.completeFrame; (repeat' split) <;> simp
@[simp] theorem State.completeFrame_bench_lastOutcome (s : State) (f : List Word) : (s.completeFrame f).bench.lastOutcome = s.bench.lastOutcome := by
  unfold State.completeFrame; (repeat' split) <;> simp
@[simp] theorem State.completeFrame_bench_enables (s : State) (f : List Word) : (s.completeFrame f).bench.enables = s.bench.enables := by
  unfold State.completeFrame; (repeat' split) <;> simp
@[simp] theorem State.completeFrame_bench_selected (s : State) (f : List Word) : (s.completeFrame f).bench.selected = s.bench.selected := by
  unfold State.completeFrame; (repeat' split) <;> simp
@[simp] theorem State.completeFrame_bench_out (s : State) (f : List Word) : (s.completeFrame f).bench.out = s.bench.out := by
  unfold State.completeFrame; (repeat' split) <;> simp
@[simp] theorem State.completeFrame_runs_queue (s : State) (f : List Word) : (s.completeFrame f).runs.queue = s.runs.queue := by
  unfold State.completeFrame; (repeat' split) <;> simp
@[simp] theorem State.completeFrame_runs_results (s : State) (f : List Word) : (s.completeFrame f).runs.results = s.runs.results := by
  unfold State.completeFrame; (repeat' split) <;> simp
@[simp] theorem State.completeFrame_runs_serial (s : State) (f : List Word) : (s.completeFrame f).runs.serial = s.runs.serial := by
  unfold State.completeFrame; (repeat' split) <;> simp

/-! ### captureWord -/

@[simp] theorem State.captureWord_map (s : State) (frameStart : Bool) (w : Word) : (s.captureWord frameStart w).map = s.map := by
  unfold State.captureWord; (repeat' split) <;> simp
@[simp] theorem State.captureWord_profiles (s : State) (frameStart : Bool) (w : Word) : (s.captureWord frameStart w).profiles = s.profiles := by
  unfold State.captureWord; (repeat' split) <;> simp
@[simp] theorem State.captureWord_publishing (s : State) (frameStart : Bool) (w : Word) : (s.captureWord frameStart w).publishing = s.publishing := by
  unfold State.captureWord; (repeat' split) <;> simp
@[simp] theorem State.captureWord_settings (s : State) (frameStart : Bool) (w : Word) : (s.captureWord frameStart w).settings = s.settings := by
  unfold State.captureWord; (repeat' split) <;> simp
@[simp] theorem State.captureWord_sweep (s : State) (frameStart : Bool) (w : Word) : (s.captureWord frameStart w).sweep = s.sweep := by
  unfold State.captureWord; (repeat' split) <;> simp
@[simp] theorem State.captureWord_index (s : State) (frameStart : Bool) (w : Word) : (s.captureWord frameStart w).index = s.index := by
  unfold State.captureWord; (repeat' split) <;> simp
@[simp] theorem State.captureWord_held (s : State) (frameStart : Bool) (w : Word) : (s.captureWord frameStart w).held = s.held := by
  unfold State.captureWord; (repeat' split) <;> simp
@[simp] theorem State.captureWord_autoRequests (s : State) (frameStart : Bool) (w : Word) : (s.captureWord frameStart w).autoRequests = s.autoRequests := by
  unfold State.captureWord; (repeat' split) <;> simp
@[simp] theorem State.captureWord_ff (s : State) (frameStart : Bool) (w : Word) : (s.captureWord frameStart w).ff = s.ff := by
  unfold State.captureWord; (repeat' split) <;> simp
@[simp] theorem State.captureWord_exclusions (s : State) (frameStart : Bool) (w : Word) : (s.captureWord frameStart w).exclusions = s.exclusions := by
  unfold State.captureWord; (repeat' split) <;> simp
@[simp] theorem State.captureWord_perms (s : State) (frameStart : Bool) (w : Word) : (s.captureWord frameStart w).perms = s.perms := by
  unfold State.captureWord; (repeat' split) <;> simp
@[simp] theorem State.captureWord_startup (s : State) (frameStart : Bool) (w : Word) : (s.captureWord frameStart w).startup = s.startup := by
  unfold State.captureWord; (repeat' split) <;> simp
@[simp] theorem State.captureWord_publishAtOnce (s : State) (frameStart : Bool) (w : Word) : (s.captureWord frameStart w).publishAtOnce = s.publishAtOnce := by
  unfold State.captureWord; (repeat' split) <;> simp
@[simp] theorem State.captureWord_autoOrder (s : State) (frameStart : Bool) (w : Word) : (s.captureWord frameStart w).autoOrder = s.autoOrder := by
  unfold State.captureWord; (repeat' split) <;> simp
@[simp] theorem State.captureWord_pending (s : State) (frameStart : Bool) (w : Word) : (s.captureWord frameStart w).pending = s.pending := by
  unfold State.captureWord; (repeat' split) <;> simp
@[simp] theorem State.captureWord_bench_assembly (s : State) (frameStart : Bool) (w : Word) : (s.captureWord frameStart w).bench.assembly = s.bench.assembly := by
  unfold State.captureWord; (repeat' split) <;> simp
@[simp] theorem State.captureWord_bench_returnQueue (s : State) (frameStart : Bool) (w : Word) : (s.captureWord frameStart w).bench.returnQueue = s.bench.returnQueue := by
  unfold State.captureWord; (repeat' split) <;> simp
@[simp] theorem State.captureWord_bench_window (s : State) (frameStart : Bool) (w : Word) : (s.captureWord frameStart w).bench.window = s.bench.window := by
  unfold State.captureWord; (repeat' split) <;> simp
@[simp] theorem State.captureWord_bench_order (s : State) (frameStart : Bool) (w : Word) : (s.captureWord frameStart w).bench.order = s.bench.order := by
  unfold State.captureWord; (repeat' split) <;> simp
@[simp] theorem State.captureWord_bench_pointer (s : State) (frameStart : Bool) (w : Word) : (s.captureWord frameStart w).bench.pointer = s.bench.pointer := by
  unfold State.captureWord; (repeat' split) <;> simp
@[simp] theorem State.captureWord_bench_stream (s : State) (frameStart : Bool) (w : Word) : (s.captureWord frameStart w).bench.stream = s.bench.stream := by
  unfold State.captureWord; (repeat' split) <;> simp
@[simp] theorem State.captureWord_bench_lastOutcome (s : State) (frameStart : Bool) (w : Word) : (s.captureWord frameStart w).bench.lastOutcome = s.bench.lastOutcome := by
  unfold State.captureWord; (repeat' split) <;> simp
@[simp] theorem State.captureWord_bench_enables (s : State) (frameStart : Bool) (w : Word) : (s.captureWord frameStart w).bench.enables = s.bench.enables := by
  unfold State.captureWord; (repeat' split) <;> simp
@[simp] theorem State.captureWord_bench_selected (s : State) (frameStart : Bool) (w : Word) : (s.captureWord frameStart w).bench.selected = s.bench.selected := by
  unfold State.captureWord; (repeat' split) <;> simp
@[simp] theorem State.captureWord_bench_out (s : State) (frameStart : Bool) (w : Word) : (s.captureWord frameStart w).bench.out = s.bench.out := by
  unfold State.captureWord; (repeat' split) <;> simp
@[simp] theorem State.captureWord_runs_queue (s : State) (frameStart : Bool) (w : Word) : (s.captureWord frameStart w).runs.queue = s.runs.queue := by
  unfold State.captureWord; (repeat' split) <;> simp
@[simp] theorem State.captureWord_runs_results (s : State) (frameStart : Bool) (w : Word) : (s.captureWord frameStart w).runs.results = s.runs.results := by
  unfold State.captureWord; (repeat' split) <;> simp
@[simp] theorem State.captureWord_runs_serial (s : State) (frameStart : Bool) (w : Word) : (s.captureWord frameStart w).runs.serial = s.runs.serial := by
  unfold State.captureWord; (repeat' split) <;> simp

/-! ### beginRun -/

@[simp] theorem State.beginRun_publishing (s : State) (d : Descriptor) : (s.beginRun d).publishing = s.publishing := by
  unfold State.beginRun; dsimp only
@[simp] theorem State.beginRun_settings (s : State) (d : Descriptor) : (s.beginRun d).settings = s.settings := by
  unfold State.beginRun; dsimp only
@[simp] theorem State.beginRun_sweep (s : State) (d : Descriptor) : (s.beginRun d).sweep = s.sweep := by
  unfold State.beginRun; dsimp only
@[simp] theorem State.beginRun_capture (s : State) (d : Descriptor) : (s.beginRun d).capture = s.capture := by
  unfold State.beginRun; dsimp only
@[simp] theorem State.beginRun_held (s : State) (d : Descriptor) : (s.beginRun d).held = s.held := by
  unfold State.beginRun; dsimp only
@[simp] theorem State.beginRun_autoRequests (s : State) (d : Descriptor) : (s.beginRun d).autoRequests = s.autoRequests := by
  unfold State.beginRun; dsimp only
@[simp] theorem State.beginRun_ff (s : State) (d : Descriptor) : (s.beginRun d).ff = s.ff := by
  unfold State.beginRun; dsimp only
@[simp] theorem State.beginRun_exclusions (s : State) (d : Descriptor) : (s.beginRun d).exclusions = s.exclusions := by
  unfold State.beginRun; dsimp only
@[simp] theorem State.beginRun_perms (s : State) (d : Descriptor) : (s.beginRun d).perms = s.perms := by
  unfold State.beginRun; dsimp only
@[simp] theorem State.beginRun_bench (s : State) (d : Descriptor) : (s.beginRun d).bench = s.bench := by
  unfold State.beginRun; dsimp only
@[simp] theorem State.beginRun_startup (s : State) (d : Descriptor) : (s.beginRun d).startup = s.startup := by
  unfold State.beginRun; dsimp only
@[simp] theorem State.beginRun_publishAtOnce (s : State) (d : Descriptor) : (s.beginRun d).publishAtOnce = s.publishAtOnce := by
  unfold State.beginRun; dsimp only
@[simp] theorem State.beginRun_autoOrder (s : State) (d : Descriptor) : (s.beginRun d).autoOrder = s.autoOrder := by
  unfold State.beginRun; dsimp only
@[simp] theorem State.beginRun_pending (s : State) (d : Descriptor) : (s.beginRun d).pending = s.pending := by
  unfold State.beginRun; dsimp only
@[simp] theorem State.beginRun_runs_queue (s : State) (d : Descriptor) : (s.beginRun d).runs.queue = s.runs.queue := by
  unfold State.beginRun; dsimp only
@[simp] theorem State.beginRun_runs_results (s : State) (d : Descriptor) : (s.beginRun d).runs.results = s.runs.results := by
  unfold State.beginRun; dsimp only

/-! ### startRun -/

@[simp] theorem State.startRun_settings (s : State) : (s.startRun).settings = s.settings := by
  unfold State.startRun; dsimp only; (repeat' split) <;> simp
@[simp] theorem State.startRun_sweep (s : State) : (s.startRun).sweep = s.sweep := by
  unfold State.startRun; dsimp only; (repeat' split) <;> simp
@[simp] theorem State.startRun_capture (s : State) : (s.startRun).capture = s.capture := by
  unfold State.startRun; dsimp only; (repeat' split) <;> simp
@[simp] theorem State.startRun_held (s : State) : (s.startRun).held = s.held := by
  unfold State.startRun; dsimp only; (repeat' split) <;> simp
@[simp] theorem State.startRun_autoRequests (s : State) : (s.startRun).autoRequests = s.autoRequests := by
  unfold State.startRun; dsimp only; (repeat' split) <;> simp
@[simp] theorem State.startRun_ff (s : State) : (s.startRun).ff = s.ff := by
  unfold State.startRun; dsimp only; (repeat' split) <;> simp
@[simp] theorem State.startRun_exclusions (s : State) : (s.startRun).exclusions = s.exclusions := by
  unfold State.startRun; dsimp only; (repeat' split) <;> simp
@[simp] theorem State.startRun_perms (s : State) : (s.startRun).perms = s.perms := by
  unfold State.startRun; dsimp only; (repeat' split) <;> simp
@[simp] theorem State.startRun_startup (s : State) : (s.startRun).startup = s.startup := by
  unfold State.startRun; dsimp only; (repeat' split) <;> simp
@[simp] theorem State.startRun_publishAtOnce (s : State) : (s.startRun).publishAtOnce = s.publishAtOnce := by
  unfold State.startRun; dsimp only; (repeat' split) <;> simp
@[simp] theorem State.startRun_autoOrder (s : State) : (s.startRun).autoOrder = s.autoOrder := by
  unfold State.startRun; dsimp only; (repeat' split) <;> simp
@[simp] theorem State.startRun_pending (s : State) : (s.startRun).pending = s.pending := by
  unfold State.startRun; dsimp only; (repeat' split) <;> simp
@[simp] theorem State.startRun_bench_assembly (s : State) : (s.startRun).bench.assembly = s.bench.assembly := by
  unfold State.startRun; dsimp only; (repeat' split) <;> simp
@[simp] theorem State.startRun_bench_returnQueue (s : State) : (s.startRun).bench.returnQueue = s.bench.returnQueue := by
  unfold State.startRun; dsimp only; (repeat' split) <;> simp
@[simp] theorem State.startRun_bench_window (s : State) : (s.startRun).bench.window = s.bench.window := by
  unfold State.startRun; dsimp only; (repeat' split) <;> simp
@[simp] theorem State.startRun_bench_order (s : State) : (s.startRun).bench.order = s.bench.order := by
  unfold State.startRun; dsimp only; (repeat' split) <;> simp
@[simp] theorem State.startRun_bench_pointer (s : State) : (s.startRun).bench.pointer = s.bench.pointer := by
  unfold State.startRun; dsimp only; (repeat' split) <;> simp
@[simp] theorem State.startRun_bench_stream (s : State) : (s.startRun).bench.stream = s.bench.stream := by
  unfold State.startRun; dsimp only; (repeat' split) <;> simp
@[simp] theorem State.startRun_bench_lastOutcome (s : State) : (s.startRun).bench.lastOutcome = s.bench.lastOutcome := by
  unfold State.startRun; dsimp only; (repeat' split) <;> simp
@[simp] theorem State.startRun_bench_enables (s : State) : (s.startRun).bench.enables = s.bench.enables := by
  unfold State.startRun; dsimp only; (repeat' split) <;> simp
@[simp] theorem State.startRun_bench_selected (s : State) : (s.startRun).bench.selected = s.bench.selected := by
  unfold State.startRun; dsimp only; (repeat' split) <;> simp
@[simp] theorem State.startRun_bench_out (s : State) : (s.startRun).bench.out = s.bench.out := by
  unfold State.startRun; dsimp only; (repeat' split) <;> simp

/-! ### retry -/

@[simp] theorem State.retry_profiles (s : State) (ctx : RunCtx) (r : Rev) : (s.retry ctx r).profiles = s.profiles := by
  unfold State.retry; simp
@[simp] theorem State.retry_publishing (s : State) (ctx : RunCtx) (r : Rev) : (s.retry ctx r).publishing = s.publishing := by
  unfold State.retry; simp
@[simp] theorem State.retry_settings (s : State) (ctx : RunCtx) (r : Rev) : (s.retry ctx r).settings = s.settings := by
  unfold State.retry; simp
@[simp] theorem State.retry_sweep (s : State) (ctx : RunCtx) (r : Rev) : (s.retry ctx r).sweep = s.sweep := by
  unfold State.retry; simp
@[simp] theorem State.retry_capture (s : State) (ctx : RunCtx) (r : Rev) : (s.retry ctx r).capture = s.capture := by
  unfold State.retry; simp
@[simp] theorem State.retry_index (s : State) (ctx : RunCtx) (r : Rev) : (s.retry ctx r).index = s.index := by
  unfold State.retry; simp
@[simp] theorem State.retry_held (s : State) (ctx : RunCtx) (r : Rev) : (s.retry ctx r).held = s.held := by
  unfold State.retry; simp
@[simp] theorem State.retry_autoRequests (s : State) (ctx : RunCtx) (r : Rev) : (s.retry ctx r).autoRequests = s.autoRequests := by
  unfold State.retry; simp
@[simp] theorem State.retry_ff (s : State) (ctx : RunCtx) (r : Rev) : (s.retry ctx r).ff = s.ff := by
  unfold State.retry; simp
@[simp] theorem State.retry_exclusions (s : State) (ctx : RunCtx) (r : Rev) : (s.retry ctx r).exclusions = s.exclusions := by
  unfold State.retry; simp
@[simp] theorem State.retry_perms (s : State) (ctx : RunCtx) (r : Rev) : (s.retry ctx r).perms = s.perms := by
  unfold State.retry; simp
@[simp] theorem State.retry_bench (s : State) (ctx : RunCtx) (r : Rev) : (s.retry ctx r).bench = s.bench := by
  unfold State.retry; simp
@[simp] theorem State.retry_startup (s : State) (ctx : RunCtx) (r : Rev) : (s.retry ctx r).startup = s.startup := by
  unfold State.retry; simp
@[simp] theorem State.retry_publishAtOnce (s : State) (ctx : RunCtx) (r : Rev) : (s.retry ctx r).publishAtOnce = s.publishAtOnce := by
  unfold State.retry; simp
@[simp] theorem State.retry_autoOrder (s : State) (ctx : RunCtx) (r : Rev) : (s.retry ctx r).autoOrder = s.autoOrder := by
  unfold State.retry; simp
@[simp] theorem State.retry_pending (s : State) (ctx : RunCtx) (r : Rev) : (s.retry ctx r).pending = s.pending := by
  unfold State.retry; simp
@[simp] theorem State.retry_runs_queue (s : State) (ctx : RunCtx) (r : Rev) : (s.retry ctx r).runs.queue = s.runs.queue := by
  unfold State.retry; simp
@[simp] theorem State.retry_runs_results (s : State) (ctx : RunCtx) (r : Rev) : (s.retry ctx r).runs.results = s.runs.results := by
  unfold State.retry; simp
@[simp] theorem State.retry_runs_serial (s : State) (ctx : RunCtx) (r : Rev) : (s.retry ctx r).runs.serial = s.runs.serial := by
  unfold State.retry; simp

/-! ### learnIndex -/

@[simp] theorem State.learnIndex_settings (s : State) (ctx : RunCtx) (r : Rev) : (s.learnIndex ctx r).settings = s.settings := by
  unfold State.learnIndex; dsimp only; (repeat' split) <;> simp
@[simp] theorem State.learnIndex_sweep (s : State) (ctx : RunCtx) (r : Rev) : (s.learnIndex ctx r).sweep = s.sweep := by
  unfold State.learnIndex; dsimp only; (repeat' split) <;> simp
@[simp] theorem State.learnIndex_capture (s : State) (ctx : RunCtx) (r : Rev) : (s.learnIndex ctx r).capture = s.capture := by
  unfold State.learnIndex; dsimp only; (repeat' split) <;> simp
@[simp] theorem State.learnIndex_held (s : State) (ctx : RunCtx) (r : Rev) : (s.learnIndex ctx r).held = s.held := by
  unfold State.learnIndex; dsimp only; (repeat' split) <;> simp
@[simp] theorem State.learnIndex_autoRequests (s : State) (ctx : RunCtx) (r : Rev) : (s.learnIndex ctx r).autoRequests = s.autoRequests := by
  unfold State.learnIndex; dsimp only; (repeat' split) <;> simp
@[simp] theorem State.learnIndex_ff (s : State) (ctx : RunCtx) (r : Rev) : (s.learnIndex ctx r).ff = s.ff := by
  unfold State.learnIndex; dsimp only; (repeat' split) <;> simp
@[simp] theorem State.learnIndex_exclusions (s : State) (ctx : RunCtx) (r : Rev) : (s.learnIndex ctx r).exclusions = s.exclusions := by
  unfold State.learnIndex; dsimp only; (repeat' split) <;> simp
@[simp] theorem State.learnIndex_perms (s : State) (ctx : RunCtx) (r : Rev) : (s.learnIndex ctx r).perms = s.perms := by
  unfold State.learnIndex; dsimp only; (repeat' split) <;> simp
@[simp] theorem State.learnIndex_startup (s : State) (ctx : RunCtx) (r : Rev) : (s.learnIndex ctx r).startup = s.startup := by
  unfold State.learnIndex; dsimp only; (repeat' split) <;> simp
@[simp] theorem State.learnIndex_publishAtOnce (s : State) (ctx : RunCtx) (r : Rev) : (s.learnIndex ctx r).publishAtOnce = s.publishAtOnce := by
  unfold State.learnIndex; dsimp only; (repeat' split) <;> simp
@[simp] theorem State.learnIndex_autoOrder (s : State) (ctx : RunCtx) (r : Rev) : (s.learnIndex ctx r).autoOrder = s.autoOrder := by
  unfold State.learnIndex; dsimp only; (repeat' split) <;> simp
@[simp] theorem State.learnIndex_pending (s : State) (ctx : RunCtx) (r : Rev) : (s.learnIndex ctx r).pending = s.pending := by
  unfold State.learnIndex; dsimp only; (repeat' split) <;> simp
@[simp] theorem State.learnIndex_bench_assembly (s : State) (ctx : RunCtx) (r : Rev) : (s.learnIndex ctx r).bench.assembly = s.bench.assembly := by
  unfold State.learnIndex; dsimp only; (repeat' split) <;> simp
@[simp] theorem State.learnIndex_bench_returnQueue (s : State) (ctx : RunCtx) (r : Rev) : (s.learnIndex ctx r).bench.returnQueue = s.bench.returnQueue := by
  unfold State.learnIndex; dsimp only; (repeat' split) <;> simp
@[simp] theorem State.learnIndex_bench_window (s : State) (ctx : RunCtx) (r : Rev) : (s.learnIndex ctx r).bench.window = s.bench.window := by
  unfold State.learnIndex; dsimp only; (repeat' split) <;> simp
@[simp] theorem State.learnIndex_bench_order (s : State) (ctx : RunCtx) (r : Rev) : (s.learnIndex ctx r).bench.order = s.bench.order := by
  unfold State.learnIndex; dsimp only; (repeat' split) <;> simp
@[simp] theorem State.learnIndex_bench_pointer (s : State) (ctx : RunCtx) (r : Rev) : (s.learnIndex ctx r).bench.pointer = s.bench.pointer := by
  unfold State.learnIndex; dsimp only; (repeat' split) <;> simp
@[simp] theorem State.learnIndex_bench_stream (s : State) (ctx : RunCtx) (r : Rev) : (s.learnIndex ctx r).bench.stream = s.bench.stream := by
  unfold State.learnIndex; dsimp only; (repeat' split) <;> simp
@[simp] theorem State.learnIndex_bench_lastOutcome (s : State) (ctx : RunCtx) (r : Rev) : (s.learnIndex ctx r).bench.lastOutcome = s.bench.lastOutcome := by
  unfold State.learnIndex; dsimp only; (repeat' split) <;> simp
@[simp] theorem State.learnIndex_bench_enables (s : State) (ctx : RunCtx) (r : Rev) : (s.learnIndex ctx r).bench.enables = s.bench.enables := by
  unfold State.learnIndex; dsimp only; (repeat' split) <;> simp
@[simp] theorem State.learnIndex_bench_selected (s : State) (ctx : RunCtx) (r : Rev) : (s.learnIndex ctx r).bench.selected = s.bench.selected := by
  unfold State.learnIndex; dsimp only; (repeat' split) <;> simp
@[simp] theorem State.learnIndex_bench_out (s : State) (ctx : RunCtx) (r : Rev) : (s.learnIndex ctx r).bench.out = s.bench.out := by
  unfold State.learnIndex; dsimp only; (repeat' split) <;> simp
@[simp] theorem State.learnIndex_runs_queue (s : State) (ctx : RunCtx) (r : Rev) : (s.learnIndex ctx r).runs.queue = s.runs.queue := by
  unfold State.learnIndex; dsimp only; (repeat' split) <;> simp
@[simp] theorem State.learnIndex_runs_serial (s : State) (ctx : RunCtx) (r : Rev) : (s.learnIndex ctx r).runs.serial = s.runs.serial := by
  unfold State.learnIndex; dsimp only; (repeat' split) <;> simp

/-! ### verifyIndex -/

@[simp] theorem State.verifyIndex_settings (s : State) (ctx : RunCtx) : (s.verifyIndex ctx).settings = s.settings := by
  unfold State.verifyIndex; dsimp only; (repeat' split) <;> simp
@[simp] theorem State.verifyIndex_sweep (s : State) (ctx : RunCtx) : (s.verifyIndex ctx).sweep = s.sweep := by
  unfold State.verifyIndex; dsimp only; (repeat' split) <;> simp
@[simp] theorem State.verifyIndex_capture (s : State) (ctx : RunCtx) : (s.verifyIndex ctx).capture = s.capture := by
  unfold State.verifyIndex; dsimp only; (repeat' split) <;> simp
@[simp] theorem State.verifyIndex_held (s : State) (ctx : RunCtx) : (s.verifyIndex ctx).held = s.held := by
  unfold State.verifyIndex; dsimp only; (repeat' split) <;> simp
@[simp] theorem State.verifyIndex_autoRequests (s : State) (ctx : RunCtx) : (s.verifyIndex ctx).autoRequests = s.autoRequests := by
  unfold State.verifyIndex; dsimp only; (repeat' split) <;> simp
@[simp] theorem State.verifyIndex_ff (s : State) (ctx : RunCtx) : (s.verifyIndex ctx).ff = s.ff := by
  unfold State.verifyIndex; dsimp only; (repeat' split) <;> simp
@[simp] theorem State.verifyIndex_exclusions (s : State) (ctx : RunCtx) : (s.verifyIndex ctx).exclusions = s.exclusions := by
  unfold State.verifyIndex; dsimp only; (repeat' split) <;> simp
@[simp] theorem State.verifyIndex_perms (s : State) (ctx : RunCtx) : (s.verifyIndex ctx).perms = s.perms := by
  unfold State.verifyIndex; dsimp only; (repeat' split) <;> simp
@[simp] theorem State.verifyIndex_startup (s : State) (ctx : RunCtx) : (s.verifyIndex ctx).startup = s.startup := by
  unfold State.verifyIndex; dsimp only; (repeat' split) <;> simp
@[simp] theorem State.verifyIndex_publishAtOnce (s : State) (ctx : RunCtx) : (s.verifyIndex ctx).publishAtOnce = s.publishAtOnce := by
  unfold State.verifyIndex; dsimp only; (repeat' split) <;> simp
@[simp] theorem State.verifyIndex_autoOrder (s : State) (ctx : RunCtx) : (s.verifyIndex ctx).autoOrder = s.autoOrder := by
  unfold State.verifyIndex; dsimp only; (repeat' split) <;> simp
@[simp] theorem State.verifyIndex_pending (s : State) (ctx : RunCtx) : (s.verifyIndex ctx).pending = s.pending := by
  unfold State.verifyIndex; dsimp only; (repeat' split) <;> simp
@[simp] theorem State.verifyIndex_bench_assembly (s : State) (ctx : RunCtx) : (s.verifyIndex ctx).bench.assembly = s.bench.assembly := by
  unfold State.verifyIndex; dsimp only; (repeat' split) <;> simp
@[simp] theorem State.verifyIndex_bench_returnQueue (s : State) (ctx : RunCtx) : (s.verifyIndex ctx).bench.returnQueue = s.bench.returnQueue := by
  unfold State.verifyIndex; dsimp only; (repeat' split) <;> simp
@[simp] theorem State.verifyIndex_bench_window (s : State) (ctx : RunCtx) : (s.verifyIndex ctx).bench.window = s.bench.window := by
  unfold State.verifyIndex; dsimp only; (repeat' split) <;> simp
@[simp] theorem State.verifyIndex_bench_order (s : State) (ctx : RunCtx) : (s.verifyIndex ctx).bench.order = s.bench.order := by
  unfold State.verifyIndex; dsimp only; (repeat' split) <;> simp
@[simp] theorem State.verifyIndex_bench_pointer (s : State) (ctx : RunCtx) : (s.verifyIndex ctx).bench.pointer = s.bench.pointer := by
  unfold State.verifyIndex; dsimp only; (repeat' split) <;> simp
@[simp] theorem State.verifyIndex_bench_stream (s : State) (ctx : RunCtx) : (s.verifyIndex ctx).bench.stream = s.bench.stream := by
  unfold State.verifyIndex; dsimp only; (repeat' split) <;> simp
@[simp] theorem State.verifyIndex_bench_lastOutcome (s : State) (ctx : RunCtx) : (s.verifyIndex ctx).bench.lastOutcome = s.bench.lastOutcome := by
  unfold State.verifyIndex; dsimp only; (repeat' split) <;> simp
@[simp] theorem State.verifyIndex_bench_enables (s : State) (ctx : RunCtx) : (s.verifyIndex ctx).bench.enables = s.bench.enables := by
  unfold State.verifyIndex; dsimp only; (repeat' split) <;> simp
@[simp] theorem State.verifyIndex_bench_selected (s : State) (ctx : RunCtx) : (s.verifyIndex ctx).bench.selected = s.bench.selected := by
  unfold State.verifyIndex; dsimp only; (repeat' split) <;> simp
@[simp] theorem State.verifyIndex_bench_out (s : State) (ctx : RunCtx) : (s.verifyIndex ctx).bench.out = s.bench.out := by
  unfold State.verifyIndex; dsimp only; (repeat' split) <;> simp
@[simp] theorem State.verifyIndex_runs_queue (s : State) (ctx : RunCtx) : (s.verifyIndex ctx).runs.queue = s.runs.queue := by
  unfold State.verifyIndex; dsimp only; (repeat' split) <;> simp
@[simp] theorem State.verifyIndex_runs_serial (s : State) (ctx : RunCtx) : (s.verifyIndex ctx).runs.serial = s.runs.serial := by
  unfold State.verifyIndex; dsimp only; (repeat' split) <;> simp

/-! ### concludeGain -/

@[simp] theorem State.concludeGain_settings (s : State) (ctx : RunCtx) : (s.concludeGain ctx).settings = s.settings := by
  unfold State.concludeGain; dsimp only; simp
@[simp] theorem State.concludeGain_sweep (s : State) (ctx : RunCtx) : (s.concludeGain ctx).sweep = s.sweep := by
  unfold State.concludeGain; dsimp only; simp
@[simp] theorem State.concludeGain_capture (s : State) (ctx : RunCtx) : (s.concludeGain ctx).capture = s.capture := by
  unfold State.concludeGain; dsimp only; simp
@[simp] theorem State.concludeGain_held (s : State) (ctx : RunCtx) : (s.concludeGain ctx).held = s.held := by
  unfold State.concludeGain; dsimp only; simp
@[simp] theorem State.concludeGain_autoRequests (s : State) (ctx : RunCtx) : (s.concludeGain ctx).autoRequests = s.autoRequests := by
  unfold State.concludeGain; dsimp only; simp
@[simp] theorem State.concludeGain_ff (s : State) (ctx : RunCtx) : (s.concludeGain ctx).ff = s.ff := by
  unfold State.concludeGain; dsimp only; simp
@[simp] theorem State.concludeGain_exclusions (s : State) (ctx : RunCtx) : (s.concludeGain ctx).exclusions = s.exclusions := by
  unfold State.concludeGain; dsimp only; simp
@[simp] theorem State.concludeGain_perms (s : State) (ctx : RunCtx) : (s.concludeGain ctx).perms = s.perms := by
  unfold State.concludeGain; dsimp only; simp
@[simp] theorem State.concludeGain_startup (s : State) (ctx : RunCtx) : (s.concludeGain ctx).startup = s.startup := by
  unfold State.concludeGain; dsimp only; simp
@[simp] theorem State.concludeGain_publishAtOnce (s : State) (ctx : RunCtx) : (s.concludeGain ctx).publishAtOnce = s.publishAtOnce := by
  unfold State.concludeGain; dsimp only; simp
@[simp] theorem State.concludeGain_autoOrder (s : State) (ctx : RunCtx) : (s.concludeGain ctx).autoOrder = s.autoOrder := by
  unfold State.concludeGain; dsimp only; simp
@[simp] theorem State.concludeGain_pending (s : State) (ctx : RunCtx) : (s.concludeGain ctx).pending = s.pending := by
  unfold State.concludeGain; dsimp only; simp
@[simp] theorem State.concludeGain_bench_assembly (s : State) (ctx : RunCtx) : (s.concludeGain ctx).bench.assembly = s.bench.assembly := by
  unfold State.concludeGain; dsimp only; simp
@[simp] theorem State.concludeGain_bench_returnQueue (s : State) (ctx : RunCtx) : (s.concludeGain ctx).bench.returnQueue = s.bench.returnQueue := by
  unfold State.concludeGain; dsimp only; simp
@[simp] theorem State.concludeGain_bench_window (s : State) (ctx : RunCtx) : (s.concludeGain ctx).bench.window = s.bench.window := by
  unfold State.concludeGain; dsimp only; simp
@[simp] theorem State.concludeGain_bench_order (s : State) (ctx : RunCtx) : (s.concludeGain ctx).bench.order = s.bench.order := by
  unfold State.concludeGain; dsimp only; simp
@[simp] theorem State.concludeGain_bench_pointer (s : State) (ctx : RunCtx) : (s.concludeGain ctx).bench.pointer = s.bench.pointer := by
  unfold State.concludeGain; dsimp only; simp
@[simp] theorem State.concludeGain_bench_stream (s : State) (ctx : RunCtx) : (s.concludeGain ctx).bench.stream = s.bench.stream := by
  unfold State.concludeGain; dsimp only; simp
@[simp] theorem State.concludeGain_bench_lastOutcome (s : State) (ctx : RunCtx) : (s.concludeGain ctx).bench.lastOutcome = s.bench.lastOutcome := by
  unfold State.concludeGain; dsimp only; simp
@[simp] theorem State.concludeGain_bench_enables (s : State) (ctx : RunCtx) : (s.concludeGain ctx).bench.enables = s.bench.enables := by
  unfold State.concludeGain; dsimp only; simp
@[simp] theorem State.concludeGain_bench_selected (s : State) (ctx : RunCtx) : (s.concludeGain ctx).bench.selected = s.bench.selected := by
  unfold State.concludeGain; dsimp only; simp
@[simp] theorem State.concludeGain_bench_out (s : State) (ctx : RunCtx) : (s.concludeGain ctx).bench.out = s.bench.out := by
  unfold State.concludeGain; dsimp only; simp
@[simp] theorem State.concludeGain_runs_queue (s : State) (ctx : RunCtx) : (s.concludeGain ctx).runs.queue = s.runs.queue := by
  unfold State.concludeGain; dsimp only; simp
@[simp] theorem State.concludeGain_runs_serial (s : State) (ctx : RunCtx) : (s.concludeGain ctx).runs.serial = s.runs.serial := by
  unfold State.concludeGain; dsimp only; simp

/-! ### minusIndex -/

@[simp] theorem State.minusIndex_settings (s : State) (ctx : RunCtx) : (s.minusIndex ctx).settings = s.settings := by
  unfold State.minusIndex; dsimp only; (repeat' split) <;> simp
@[simp] theorem State.minusIndex_sweep (s : State) (ctx : RunCtx) : (s.minusIndex ctx).sweep = s.sweep := by
  unfold State.minusIndex; dsimp only; (repeat' split) <;> simp
@[simp] theorem State.minusIndex_capture (s : State) (ctx : RunCtx) : (s.minusIndex ctx).capture = s.capture := by
  unfold State.minusIndex; dsimp only; (repeat' split) <;> simp
@[simp] theorem State.minusIndex_held (s : State) (ctx : RunCtx) : (s.minusIndex ctx).held = s.held := by
  unfold State.minusIndex; dsimp only; (repeat' split) <;> simp
@[simp] theorem State.minusIndex_autoRequests (s : State) (ctx : RunCtx) : (s.minusIndex ctx).autoRequests = s.autoRequests := by
  unfold State.minusIndex; dsimp only; (repeat' split) <;> simp
@[simp] theorem State.minusIndex_ff (s : State) (ctx : RunCtx) : (s.minusIndex ctx).ff = s.ff := by
  unfold State.minusIndex; dsimp only; (repeat' split) <;> simp
@[simp] theorem State.minusIndex_exclusions (s : State) (ctx : RunCtx) : (s.minusIndex ctx).exclusions = s.exclusions := by
  unfold State.minusIndex; dsimp only; (repeat' split) <;> simp
@[simp] theorem State.minusIndex_perms (s : State) (ctx : RunCtx) : (s.minusIndex ctx).perms = s.perms := by
  unfold State.minusIndex; dsimp only; (repeat' split) <;> simp
@[simp] theorem State.minusIndex_startup (s : State) (ctx : RunCtx) : (s.minusIndex ctx).startup = s.startup := by
  unfold State.minusIndex; dsimp only; (repeat' split) <;> simp
@[simp] theorem State.minusIndex_publishAtOnce (s : State) (ctx : RunCtx) : (s.minusIndex ctx).publishAtOnce = s.publishAtOnce := by
  unfold State.minusIndex; dsimp only; (repeat' split) <;> simp
@[simp] theorem State.minusIndex_autoOrder (s : State) (ctx : RunCtx) : (s.minusIndex ctx).autoOrder = s.autoOrder := by
  unfold State.minusIndex; dsimp only; (repeat' split) <;> simp
@[simp] theorem State.minusIndex_pending (s : State) (ctx : RunCtx) : (s.minusIndex ctx).pending = s.pending := by
  unfold State.minusIndex; dsimp only; (repeat' split) <;> simp
@[simp] theorem State.minusIndex_bench_assembly (s : State) (ctx : RunCtx) : (s.minusIndex ctx).bench.assembly = s.bench.assembly := by
  unfold State.minusIndex; dsimp only; (repeat' split) <;> simp
@[simp] theorem State.minusIndex_bench_returnQueue (s : State) (ctx : RunCtx) : (s.minusIndex ctx).bench.returnQueue = s.bench.returnQueue := by
  unfold State.minusIndex; dsimp only; (repeat' split) <;> simp
@[simp] theorem State.minusIndex_bench_window (s : State) (ctx : RunCtx) : (s.minusIndex ctx).bench.window = s.bench.window := by
  unfold State.minusIndex; dsimp only; (repeat' split) <;> simp
@[simp] theorem State.minusIndex_bench_order (s : State) (ctx : RunCtx) : (s.minusIndex ctx).bench.order = s.bench.order := by
  unfold State.minusIndex; dsimp only; (repeat' split) <;> simp
@[simp] theorem State.minusIndex_bench_pointer (s : State) (ctx : RunCtx) : (s.minusIndex ctx).bench.pointer = s.bench.pointer := by
  unfold State.minusIndex; dsimp only; (repeat' split) <;> simp
@[simp] theorem State.minusIndex_bench_stream (s : State) (ctx : RunCtx) : (s.minusIndex ctx).bench.stream = s.bench.stream := by
  unfold State.minusIndex; dsimp only; (repeat' split) <;> simp
@[simp] theorem State.minusIndex_bench_lastOutcome (s : State) (ctx : RunCtx) : (s.minusIndex ctx).bench.lastOutcome = s.bench.lastOutcome := by
  unfold State.minusIndex; dsimp only; (repeat' split) <;> simp
@[simp] theorem State.minusIndex_bench_enables (s : State) (ctx : RunCtx) : (s.minusIndex ctx).bench.enables = s.bench.enables := by
  unfold State.minusIndex; dsimp only; (repeat' split) <;> simp
@[simp] theorem State.minusIndex_bench_selected (s : State) (ctx : RunCtx) : (s.minusIndex ctx).bench.selected = s.bench.selected := by
  unfold State.minusIndex; dsimp only; (repeat' split) <;> simp
@[simp] theorem State.minusIndex_bench_out (s : State) (ctx : RunCtx) : (s.minusIndex ctx).bench.out = s.bench.out := by
  unfold State.minusIndex; dsimp only; (repeat' split) <;> simp
@[simp] theorem State.minusIndex_runs_queue (s : State) (ctx : RunCtx) : (s.minusIndex ctx).runs.queue = s.runs.queue := by
  unfold State.minusIndex; dsimp only; (repeat' split) <;> simp
@[simp] theorem State.minusIndex_runs_serial (s : State) (ctx : RunCtx) : (s.minusIndex ctx).runs.serial = s.runs.serial := by
  unfold State.minusIndex; dsimp only; (repeat' split) <;> simp

/-! ### runIndex -/

@[simp] theorem State.runIndex_settings (s : State) (r : Rev) : (s.runIndex r).settings = s.settings := by
  unfold State.runIndex; (repeat' split) <;> simp
@[simp] theorem State.runIndex_sweep (s : State) (r : Rev) : (s.runIndex r).sweep = s.sweep := by
  unfold State.runIndex; (repeat' split) <;> simp
@[simp] theorem State.runIndex_capture (s : State) (r : Rev) : (s.runIndex r).capture = s.capture := by
  unfold State.runIndex; (repeat' split) <;> simp
@[simp] theorem State.runIndex_held (s : State) (r : Rev) : (s.runIndex r).held = s.held := by
  unfold State.runIndex; (repeat' split) <;> simp
@[simp] theorem State.runIndex_autoRequests (s : State) (r : Rev) : (s.runIndex r).autoRequests = s.autoRequests := by
  unfold State.runIndex; (repeat' split) <;> simp
@[simp] theorem State.runIndex_ff (s : State) (r : Rev) : (s.runIndex r).ff = s.ff := by
  unfold State.runIndex; (repeat' split) <;> simp
@[simp] theorem State.runIndex_exclusions (s : State) (r : Rev) : (s.runIndex r).exclusions = s.exclusions := by
  unfold State.runIndex; (repeat' split) <;> simp
@[simp] theorem State.runIndex_perms (s : State) (r : Rev) : (s.runIndex r).perms = s.perms := by
  unfold State.runIndex; (repeat' split) <;> simp
@[simp] theorem State.runIndex_startup (s : State) (r : Rev) : (s.runIndex r).startup = s.startup := by
  unfold State.runIndex; (repeat' split) <;> simp
@[simp] theorem State.runIndex_publishAtOnce (s : State) (r : Rev) : (s.runIndex r).publishAtOnce = s.publishAtOnce := by
  unfold State.runIndex; (repeat' split) <;> simp
@[simp] theorem State.runIndex_autoOrder (s : State) (r : Rev) : (s.runIndex r).autoOrder = s.autoOrder := by
  unfold State.runIndex; (repeat' split) <;> simp
@[simp] theorem State.runIndex_pending (s : State) (r : Rev) : (s.runIndex r).pending = s.pending := by
  unfold State.runIndex; (repeat' split) <;> simp
@[simp] theorem State.runIndex_bench_assembly (s : State) (r : Rev) : (s.runIndex r).bench.assembly = s.bench.assembly := by
  unfold State.runIndex; (repeat' split) <;> simp
@[simp] theorem State.runIndex_bench_returnQueue (s : State) (r : Rev) : (s.runIndex r).bench.returnQueue = s.bench.returnQueue := by
  unfold State.runIndex; (repeat' split) <;> simp
@[simp] theorem State.runIndex_bench_window (s : State) (r : Rev) : (s.runIndex r).bench.window = s.bench.window := by
  unfold State.runIndex; (repeat' split) <;> simp
@[simp] theorem State.runIndex_bench_order (s : State) (r : Rev) : (s.runIndex r).bench.order = s.bench.order := by
  unfold State.runIndex; (repeat' split) <;> simp
@[simp] theorem State.runIndex_bench_pointer (s : State) (r : Rev) : (s.runIndex r).bench.pointer = s.bench.pointer := by
  unfold State.runIndex; (repeat' split) <;> simp
@[simp] theorem State.runIndex_bench_stream (s : State) (r : Rev) : (s.runIndex r).bench.stream = s.bench.stream := by
  unfold State.runIndex; (repeat' split) <;> simp
@[simp] theorem State.runIndex_bench_lastOutcome (s : State) (r : Rev) : (s.runIndex r).bench.lastOutcome = s.bench.lastOutcome := by
  unfold State.runIndex; (repeat' split) <;> simp
@[simp] theorem State.runIndex_bench_enables (s : State) (r : Rev) : (s.runIndex r).bench.enables = s.bench.enables := by
  unfold State.runIndex; (repeat' split) <;> simp
@[simp] theorem State.runIndex_bench_selected (s : State) (r : Rev) : (s.runIndex r).bench.selected = s.bench.selected := by
  unfold State.runIndex; (repeat' split) <;> simp
@[simp] theorem State.runIndex_bench_out (s : State) (r : Rev) : (s.runIndex r).bench.out = s.bench.out := by
  unfold State.runIndex; (repeat' split) <;> simp
@[simp] theorem State.runIndex_runs_queue (s : State) (r : Rev) : (s.runIndex r).runs.queue = s.runs.queue := by
  unfold State.runIndex; (repeat' split) <;> simp
@[simp] theorem State.runIndex_runs_serial (s : State) (r : Rev) : (s.runIndex r).runs.serial = s.runs.serial := by
  unfold State.runIndex; (repeat' split) <;> simp

/-! ### publishNext -/

@[simp] theorem State.publishNext_settings (s : State) : (s.publishNext).settings = s.settings := by
  unfold State.publishNext; (repeat' split) <;> simp
@[simp] theorem State.publishNext_sweep (s : State) : (s.publishNext).sweep = s.sweep := by
  unfold State.publishNext; (repeat' split) <;> simp
@[simp] theorem State.publishNext_capture (s : State) : (s.publishNext).capture = s.capture := by
  unfold State.publishNext; (repeat' split) <;> simp
@[simp] theorem State.publishNext_index (s : State) : (s.publishNext).index = s.index := by
  unfold State.publishNext; (repeat' split) <;> simp
@[simp] theorem State.publishNext_held (s : State) : (s.publishNext).held = s.held := by
  unfold State.publishNext; (repeat' split) <;> simp
@[simp] theorem State.publishNext_autoRequests (s : State) : (s.publishNext).autoRequests = s.autoRequests := by
  unfold State.publishNext; (repeat' split) <;> simp
@[simp] theorem State.publishNext_runs (s : State) : (s.publishNext).runs = s.runs := by
  unfold State.publishNext; (repeat' split) <;> simp
@[simp] theorem State.publishNext_ff (s : State) : (s.publishNext).ff = s.ff := by
  unfold State.publishNext; (repeat' split) <;> simp
@[simp] theorem State.publishNext_exclusions (s : State) : (s.publishNext).exclusions = s.exclusions := by
  unfold State.publishNext; (repeat' split) <;> simp
@[simp] theorem State.publishNext_perms (s : State) : (s.publishNext).perms = s.perms := by
  unfold State.publishNext; (repeat' split) <;> simp
@[simp] theorem State.publishNext_bench (s : State) : (s.publishNext).bench = s.bench := by
  unfold State.publishNext; (repeat' split) <;> simp
@[simp] theorem State.publishNext_startup (s : State) : (s.publishNext).startup = s.startup := by
  unfold State.publishNext; (repeat' split) <;> simp
@[simp] theorem State.publishNext_publishAtOnce (s : State) : (s.publishNext).publishAtOnce = s.publishAtOnce := by
  unfold State.publishNext; (repeat' split) <;> simp
@[simp] theorem State.publishNext_autoOrder (s : State) : (s.publishNext).autoOrder = s.autoOrder := by
  unfold State.publishNext; (repeat' split) <;> simp
@[simp] theorem State.publishNext_pending (s : State) : (s.publishNext).pending = s.pending := by
  unfold State.publishNext; (repeat' split) <;> simp

/-! ### publishAll -/

@[simp] theorem State.publishAll_settings (s : State) : (s.publishAll).settings = s.settings := by exact foldl_publishHead_keeps (fun t => t.settings) (fun _ _ => by simp) _ _
@[simp] theorem State.publishAll_sweep (s : State) : (s.publishAll).sweep = s.sweep := by exact foldl_publishHead_keeps (fun t => t.sweep) (fun _ _ => by simp) _ _
@[simp] theorem State.publishAll_capture (s : State) : (s.publishAll).capture = s.capture := by exact foldl_publishHead_keeps (fun t => t.capture) (fun _ _ => by simp) _ _
@[simp] theorem State.publishAll_index (s : State) : (s.publishAll).index = s.index := by exact foldl_publishHead_keeps (fun t => t.index) (fun _ _ => by simp) _ _
@[simp] theorem State.publishAll_held (s : State) : (s.publishAll).held = s.held := by exact foldl_publishHead_keeps (fun t => t.held) (fun _ _ => by simp) _ _
@[simp] theorem State.publishAll_autoRequests (s : State) : (s.publishAll).autoRequests = s.autoRequests := by exact foldl_publishHead_keeps (fun t => t.autoRequests) (fun _ _ => by simp) _ _
@[simp] theorem State.publishAll_runs (s : State) : (s.publishAll).runs = s.runs := by exact foldl_publishHead_keeps (fun t => t.runs) (fun _ _ => by simp) _ _
@[simp] theorem State.publishAll_ff (s : State) : (s.publishAll).ff = s.ff := by exact foldl_publishHead_keeps (fun t => t.ff) (fun _ _ => by simp) _ _
@[simp] theorem State.publishAll_exclusions (s : State) : (s.publishAll).exclusions = s.exclusions := by exact foldl_publishHead_keeps (fun t => t.exclusions) (fun _ _ => by simp) _ _
@[simp] theorem State.publishAll_perms (s : State) : (s.publishAll).perms = s.perms := by exact foldl_publishHead_keeps (fun t => t.perms) (fun _ _ => by simp) _ _
@[simp] theorem State.publishAll_bench (s : State) : (s.publishAll).bench = s.bench := by exact foldl_publishHead_keeps (fun t => t.bench) (fun _ _ => by simp) _ _
@[simp] theorem State.publishAll_startup (s : State) : (s.publishAll).startup = s.startup := by exact foldl_publishHead_keeps (fun t => t.startup) (fun _ _ => by simp) _ _
@[simp] theorem State.publishAll_publishAtOnce (s : State) : (s.publishAll).publishAtOnce = s.publishAtOnce := by exact foldl_publishHead_keeps (fun t => t.publishAtOnce) (fun _ _ => by simp) _ _
@[simp] theorem State.publishAll_autoOrder (s : State) : (s.publishAll).autoOrder = s.autoOrder := by exact foldl_publishHead_keeps (fun t => t.autoOrder) (fun _ _ => by simp) _ _
@[simp] theorem State.publishAll_pending (s : State) : (s.publishAll).pending = s.pending := by exact foldl_publishHead_keeps (fun t => t.pending) (fun _ _ => by simp) _ _

/-! ### publishDue -/

@[simp] theorem State.publishDue_settings (s : State) (due : List DueHead) : (s.publishDue due).settings = s.settings := by
  exact foldl_publishHead_keeps (fun t => t.settings) (fun _ _ => by simp) _ _
@[simp] theorem State.publishDue_sweep (s : State) (due : List DueHead) : (s.publishDue due).sweep = s.sweep := by exact foldl_publishHead_keeps (fun t => t.sweep) (fun _ _ => by simp) _ _
@[simp] theorem State.publishDue_capture (s : State) (due : List DueHead) : (s.publishDue due).capture = s.capture := by
  exact foldl_publishHead_keeps (fun t => t.capture) (fun _ _ => by simp) _ _
@[simp] theorem State.publishDue_index (s : State) (due : List DueHead) : (s.publishDue due).index = s.index := by exact foldl_publishHead_keeps (fun t => t.index) (fun _ _ => by simp) _ _
@[simp] theorem State.publishDue_held (s : State) (due : List DueHead) : (s.publishDue due).held = s.held := by exact foldl_publishHead_keeps (fun t => t.held) (fun _ _ => by simp) _ _
@[simp] theorem State.publishDue_autoRequests (s : State) (due : List DueHead) : (s.publishDue due).autoRequests = s.autoRequests := by
  exact foldl_publishHead_keeps (fun t => t.autoRequests) (fun _ _ => by simp) _ _
@[simp] theorem State.publishDue_autoOrder (s : State) (due : List DueHead) : (s.publishDue due).autoOrder = s.autoOrder := by
  exact foldl_publishHead_keeps (fun t => t.autoOrder) (fun _ _ => by simp) _ _
@[simp] theorem State.publishDue_runs (s : State) (due : List DueHead) : (s.publishDue due).runs = s.runs := by exact foldl_publishHead_keeps (fun t => t.runs) (fun _ _ => by simp) _ _
@[simp] theorem State.publishDue_ff (s : State) (due : List DueHead) : (s.publishDue due).ff = s.ff := by exact foldl_publishHead_keeps (fun t => t.ff) (fun _ _ => by simp) _ _
@[simp] theorem State.publishDue_exclusions (s : State) (due : List DueHead) : (s.publishDue due).exclusions = s.exclusions := by
  exact foldl_publishHead_keeps (fun t => t.exclusions) (fun _ _ => by simp) _ _
@[simp] theorem State.publishDue_perms (s : State) (due : List DueHead) : (s.publishDue due).perms = s.perms := by exact foldl_publishHead_keeps (fun t => t.perms) (fun _ _ => by simp) _ _
@[simp] theorem State.publishDue_bench (s : State) (due : List DueHead) : (s.publishDue due).bench = s.bench := by exact foldl_publishHead_keeps (fun t => t.bench) (fun _ _ => by simp) _ _
@[simp] theorem State.publishDue_startup (s : State) (due : List DueHead) : (s.publishDue due).startup = s.startup := by
  exact foldl_publishHead_keeps (fun t => t.startup) (fun _ _ => by simp) _ _
@[simp] theorem State.publishDue_pending (s : State) (due : List DueHead) : (s.publishDue due).pending = s.pending := by
  exact foldl_publishHead_keeps (fun t => t.pending) (fun _ _ => by simp) _ _

/-! ### takeIndex -/

@[simp] theorem State.takeIndex_settings (s : State) : (s.takeIndex).settings = s.settings := by
  unfold State.takeIndex; dsimp only; simp
@[simp] theorem State.takeIndex_sweep (s : State) : (s.takeIndex).sweep = s.sweep := by
  unfold State.takeIndex; dsimp only; simp
@[simp] theorem State.takeIndex_capture (s : State) : (s.takeIndex).capture = s.capture := by
  unfold State.takeIndex; dsimp only; simp
@[simp] theorem State.takeIndex_held (s : State) : (s.takeIndex).held = s.held := by
  unfold State.takeIndex; dsimp only; simp
@[simp] theorem State.takeIndex_autoRequests (s : State) : (s.takeIndex).autoRequests = s.autoRequests := by
  unfold State.takeIndex; dsimp only; simp
@[simp] theorem State.takeIndex_autoOrder (s : State) : (s.takeIndex).autoOrder = s.autoOrder := by
  unfold State.takeIndex; dsimp only; simp
@[simp] theorem State.takeIndex_ff (s : State) : (s.takeIndex).ff = s.ff := by unfold State.takeIndex; dsimp only; simp
@[simp] theorem State.takeIndex_exclusions (s : State) : (s.takeIndex).exclusions = s.exclusions := by
  unfold State.takeIndex; dsimp only; simp
@[simp] theorem State.takeIndex_perms (s : State) : (s.takeIndex).perms = s.perms := by
  unfold State.takeIndex; dsimp only; simp
@[simp] theorem State.takeIndex_startup (s : State) : (s.takeIndex).startup = s.startup := by
  unfold State.takeIndex; dsimp only; simp
@[simp] theorem State.takeIndex_pending (s : State) : (s.takeIndex).pending = s.pending := by
  unfold State.takeIndex; dsimp only; simp
@[simp] theorem State.takeIndex_bench_assembly (s : State) : (s.takeIndex).bench.assembly = s.bench.assembly := by
  unfold State.takeIndex; dsimp only; simp
@[simp] theorem State.takeIndex_bench_returnQueue (s : State) : (s.takeIndex).bench.returnQueue = s.bench.returnQueue := by
  unfold State.takeIndex; dsimp only; simp
@[simp] theorem State.takeIndex_bench_window (s : State) : (s.takeIndex).bench.window = s.bench.window := by
  unfold State.takeIndex; dsimp only; simp
@[simp] theorem State.takeIndex_bench_order (s : State) : (s.takeIndex).bench.order = s.bench.order := by
  unfold State.takeIndex; dsimp only; simp
@[simp] theorem State.takeIndex_bench_pointer (s : State) : (s.takeIndex).bench.pointer = s.bench.pointer := by
  unfold State.takeIndex; dsimp only; simp
@[simp] theorem State.takeIndex_bench_stream (s : State) : (s.takeIndex).bench.stream = s.bench.stream := by
  unfold State.takeIndex; dsimp only; simp
@[simp] theorem State.takeIndex_bench_lastOutcome (s : State) : (s.takeIndex).bench.lastOutcome = s.bench.lastOutcome := by
  unfold State.takeIndex; dsimp only; simp
@[simp] theorem State.takeIndex_bench_enables (s : State) : (s.takeIndex).bench.enables = s.bench.enables := by
  unfold State.takeIndex; dsimp only; simp
@[simp] theorem State.takeIndex_bench_selected (s : State) : (s.takeIndex).bench.selected = s.bench.selected := by
  unfold State.takeIndex; dsimp only; simp
@[simp] theorem State.takeIndex_bench_out (s : State) : (s.takeIndex).bench.out = s.bench.out := by
  unfold State.takeIndex; dsimp only; simp
@[simp] theorem State.takeIndex_runs_queue (s : State) : (s.takeIndex).runs.queue = s.runs.queue := by
  unfold State.takeIndex; dsimp only; simp
@[simp] theorem State.takeIndex_runs_serial (s : State) : (s.takeIndex).runs.serial = s.runs.serial := by
  unfold State.takeIndex; dsimp only; simp

/-! ### timerExpiry -/

@[simp] theorem State.timerExpiry_settings (s : State) : (s.timerExpiry).settings = s.settings := by
  unfold State.timerExpiry; (repeat' split) <;> simp
@[simp] theorem State.timerExpiry_sweep (s : State) : (s.timerExpiry).sweep = s.sweep := by
  unfold State.timerExpiry; (repeat' split) <;> simp
@[simp] theorem State.timerExpiry_capture (s : State) : (s.timerExpiry).capture = s.capture := by
  unfold State.timerExpiry; (repeat' split) <;> simp
@[simp] theorem State.timerExpiry_held (s : State) : (s.timerExpiry).held = s.held := by
  unfold State.timerExpiry; (repeat' split) <;> simp
@[simp] theorem State.timerExpiry_autoRequests (s : State) : (s.timerExpiry).autoRequests = s.autoRequests := by
  unfold State.timerExpiry; (repeat' split) <;> simp
@[simp] theorem State.timerExpiry_ff (s : State) : (s.timerExpiry).ff = s.ff := by
  unfold State.timerExpiry; (repeat' split) <;> simp
@[simp] theorem State.timerExpiry_exclusions (s : State) : (s.timerExpiry).exclusions = s.exclusions := by
  unfold State.timerExpiry; (repeat' split) <;> simp
@[simp] theorem State.timerExpiry_perms (s : State) : (s.timerExpiry).perms = s.perms := by
  unfold State.timerExpiry; (repeat' split) <;> simp
@[simp] theorem State.timerExpiry_startup (s : State) : (s.timerExpiry).startup = s.startup := by
  unfold State.timerExpiry; (repeat' split) <;> simp
@[simp] theorem State.timerExpiry_publishAtOnce (s : State) : (s.timerExpiry).publishAtOnce = s.publishAtOnce := by
  unfold State.timerExpiry; (repeat' split) <;> simp
@[simp] theorem State.timerExpiry_autoOrder (s : State) : (s.timerExpiry).autoOrder = s.autoOrder := by
  unfold State.timerExpiry; (repeat' split) <;> simp
@[simp] theorem State.timerExpiry_pending (s : State) : (s.timerExpiry).pending = s.pending := by
  unfold State.timerExpiry; (repeat' split) <;> simp
@[simp] theorem State.timerExpiry_bench_assembly (s : State) : (s.timerExpiry).bench.assembly = s.bench.assembly := by
  unfold State.timerExpiry; (repeat' split) <;> simp
@[simp] theorem State.timerExpiry_bench_returnQueue (s : State) : (s.timerExpiry).bench.returnQueue = s.bench.returnQueue := by
  unfold State.timerExpiry; (repeat' split) <;> simp
@[simp] theorem State.timerExpiry_bench_window (s : State) : (s.timerExpiry).bench.window = s.bench.window := by
  unfold State.timerExpiry; (repeat' split) <;> simp
@[simp] theorem State.timerExpiry_bench_order (s : State) : (s.timerExpiry).bench.order = s.bench.order := by
  unfold State.timerExpiry; (repeat' split) <;> simp
@[simp] theorem State.timerExpiry_bench_pointer (s : State) : (s.timerExpiry).bench.pointer = s.bench.pointer := by
  unfold State.timerExpiry; (repeat' split) <;> simp
@[simp] theorem State.timerExpiry_bench_stream (s : State) : (s.timerExpiry).bench.stream = s.bench.stream := by
  unfold State.timerExpiry; (repeat' split) <;> simp
@[simp] theorem State.timerExpiry_bench_lastOutcome (s : State) : (s.timerExpiry).bench.lastOutcome = s.bench.lastOutcome := by
  unfold State.timerExpiry; (repeat' split) <;> simp
@[simp] theorem State.timerExpiry_bench_enables (s : State) : (s.timerExpiry).bench.enables = s.bench.enables := by
  unfold State.timerExpiry; (repeat' split) <;> simp
@[simp] theorem State.timerExpiry_bench_selected (s : State) : (s.timerExpiry).bench.selected = s.bench.selected := by
  unfold State.timerExpiry; (repeat' split) <;> simp
@[simp] theorem State.timerExpiry_bench_out (s : State) : (s.timerExpiry).bench.out = s.bench.out := by
  unfold State.timerExpiry; (repeat' split) <;> simp
@[simp] theorem State.timerExpiry_runs_queue (s : State) : (s.timerExpiry).runs.queue = s.runs.queue := by
  unfold State.timerExpiry; (repeat' split) <;> simp
@[simp] theorem State.timerExpiry_runs_serial (s : State) : (s.timerExpiry).runs.serial = s.runs.serial := by
  unfold State.timerExpiry; (repeat' split) <;> simp

/-! ### takeAutoExclusion -/

@[simp] theorem State.takeAutoExclusion_profiles (s : State) : (s.takeAutoExclusion).profiles = s.profiles := by
  unfold State.takeAutoExclusion; dsimp only; (repeat' split) <;> simp
@[simp] theorem State.takeAutoExclusion_publishing (s : State) : (s.takeAutoExclusion).publishing = s.publishing := by
  unfold State.takeAutoExclusion; dsimp only; (repeat' split) <;> simp
@[simp] theorem State.takeAutoExclusion_settings (s : State) : (s.takeAutoExclusion).settings = s.settings := by
  unfold State.takeAutoExclusion; dsimp only; (repeat' split) <;> simp
@[simp] theorem State.takeAutoExclusion_sweep (s : State) : (s.takeAutoExclusion).sweep = s.sweep := by
  unfold State.takeAutoExclusion; dsimp only; (repeat' split) <;> simp
@[simp] theorem State.takeAutoExclusion_capture (s : State) : (s.takeAutoExclusion).capture = s.capture := by
  unfold State.takeAutoExclusion; dsimp only; (repeat' split) <;> simp
@[simp] theorem State.takeAutoExclusion_index (s : State) : (s.takeAutoExclusion).index = s.index := by
  unfold State.takeAutoExclusion; dsimp only; (repeat' split) <;> simp
@[simp] theorem State.takeAutoExclusion_held (s : State) : (s.takeAutoExclusion).held = s.held := by
  unfold State.takeAutoExclusion; dsimp only; (repeat' split) <;> simp
@[simp] theorem State.takeAutoExclusion_runs (s : State) : (s.takeAutoExclusion).runs = s.runs := by
  unfold State.takeAutoExclusion; dsimp only; (repeat' split) <;> simp
@[simp] theorem State.takeAutoExclusion_ff (s : State) : (s.takeAutoExclusion).ff = s.ff := by
  unfold State.takeAutoExclusion; dsimp only; (repeat' split) <;> simp
@[simp] theorem State.takeAutoExclusion_perms (s : State) : (s.takeAutoExclusion).perms = s.perms := by
  unfold State.takeAutoExclusion; dsimp only; (repeat' split) <;> simp
@[simp] theorem State.takeAutoExclusion_startup (s : State) : (s.takeAutoExclusion).startup = s.startup := by
  unfold State.takeAutoExclusion; dsimp only; (repeat' split) <;> simp
@[simp] theorem State.takeAutoExclusion_publishAtOnce (s : State) : (s.takeAutoExclusion).publishAtOnce = s.publishAtOnce := by
  unfold State.takeAutoExclusion; dsimp only; (repeat' split) <;> simp
@[simp] theorem State.takeAutoExclusion_pending (s : State) : (s.takeAutoExclusion).pending = s.pending := by
  unfold State.takeAutoExclusion; dsimp only; (repeat' split) <;> simp
@[simp] theorem State.takeAutoExclusion_bench_assembly (s : State) : (s.takeAutoExclusion).bench.assembly = s.bench.assembly := by
  unfold State.takeAutoExclusion; dsimp only; (repeat' split) <;> simp
@[simp] theorem State.takeAutoExclusion_bench_returnQueue (s : State) : (s.takeAutoExclusion).bench.returnQueue = s.bench.returnQueue := by
  unfold State.takeAutoExclusion; dsimp only; (repeat' split) <;> simp
@[simp] theorem State.takeAutoExclusion_bench_window (s : State) : (s.takeAutoExclusion).bench.window = s.bench.window := by
  unfold State.takeAutoExclusion; dsimp only; (repeat' split) <;> simp
@[simp] theorem State.takeAutoExclusion_bench_order (s : State) : (s.takeAutoExclusion).bench.order = s.bench.order := by
  unfold State.takeAutoExclusion; dsimp only; (repeat' split) <;> simp
@[simp] theorem State.takeAutoExclusion_bench_pointer (s : State) : (s.takeAutoExclusion).bench.pointer = s.bench.pointer := by
  unfold State.takeAutoExclusion; dsimp only; (repeat' split) <;> simp
@[simp] theorem State.takeAutoExclusion_bench_stream (s : State) : (s.takeAutoExclusion).bench.stream = s.bench.stream := by
  unfold State.takeAutoExclusion; dsimp only; (repeat' split) <;> simp
@[simp] theorem State.takeAutoExclusion_bench_lastOutcome (s : State) : (s.takeAutoExclusion).bench.lastOutcome = s.bench.lastOutcome := by
  unfold State.takeAutoExclusion; dsimp only; (repeat' split) <;> simp
@[simp] theorem State.takeAutoExclusion_bench_enables (s : State) : (s.takeAutoExclusion).bench.enables = s.bench.enables := by
  unfold State.takeAutoExclusion; dsimp only; (repeat' split) <;> simp
@[simp] theorem State.takeAutoExclusion_bench_selected (s : State) : (s.takeAutoExclusion).bench.selected = s.bench.selected := by
  unfold State.takeAutoExclusion; dsimp only; (repeat' split) <;> simp
@[simp] theorem State.takeAutoExclusion_bench_out (s : State) : (s.takeAutoExclusion).bench.out = s.bench.out := by
  unfold State.takeAutoExclusion; dsimp only; (repeat' split) <;> simp

/-! ### endSweep -/

@[simp] theorem State.endSweep_map (s : State) (w : Sweep) : (s.endSweep w).map = s.map := by
  unfold State.endSweep; dsimp only; (repeat' split) <;> simp
@[simp] theorem State.endSweep_publishing (s : State) (w : Sweep) : (s.endSweep w).publishing = s.publishing := by
  unfold State.endSweep; dsimp only; (repeat' split) <;> simp
@[simp] theorem State.endSweep_settings (s : State) (w : Sweep) : (s.endSweep w).settings = s.settings := by
  unfold State.endSweep; dsimp only; (repeat' split) <;> simp
@[simp] theorem State.endSweep_capture (s : State) (w : Sweep) : (s.endSweep w).capture = s.capture := by
  unfold State.endSweep; dsimp only; (repeat' split) <;> simp
@[simp] theorem State.endSweep_index (s : State) (w : Sweep) : (s.endSweep w).index = s.index := by
  unfold State.endSweep; dsimp only; (repeat' split) <;> simp
@[simp] theorem State.endSweep_held (s : State) (w : Sweep) : (s.endSweep w).held = s.held := by
  unfold State.endSweep; dsimp only; (repeat' split) <;> simp
@[simp] theorem State.endSweep_autoRequests (s : State) (w : Sweep) : (s.endSweep w).autoRequests = s.autoRequests := by
  unfold State.endSweep; dsimp only; (repeat' split) <;> simp
@[simp] theorem State.endSweep_ff (s : State) (w : Sweep) : (s.endSweep w).ff = s.ff := by
  unfold State.endSweep; dsimp only; (repeat' split) <;> simp
@[simp] theorem State.endSweep_exclusions (s : State) (w : Sweep) : (s.endSweep w).exclusions = s.exclusions := by
  unfold State.endSweep; dsimp only; (repeat' split) <;> simp
@[simp] theorem State.endSweep_perms (s : State) (w : Sweep) : (s.endSweep w).perms = s.perms := by
  unfold State.endSweep; dsimp only; (repeat' split) <;> simp
@[simp] theorem State.endSweep_publishAtOnce (s : State) (w : Sweep) : (s.endSweep w).publishAtOnce = s.publishAtOnce := by
  unfold State.endSweep; dsimp only; (repeat' split) <;> simp
@[simp] theorem State.endSweep_autoOrder (s : State) (w : Sweep) : (s.endSweep w).autoOrder = s.autoOrder := by
  unfold State.endSweep; dsimp only; (repeat' split) <;> simp
@[simp] theorem State.endSweep_pending (s : State) (w : Sweep) : (s.endSweep w).pending = s.pending := by
  unfold State.endSweep; dsimp only; (repeat' split) <;> simp
@[simp] theorem State.endSweep_bench_assembly (s : State) (w : Sweep) : (s.endSweep w).bench.assembly = s.bench.assembly := by
  unfold State.endSweep; dsimp only; (repeat' split) <;> simp
@[simp] theorem State.endSweep_bench_returnQueue (s : State) (w : Sweep) : (s.endSweep w).bench.returnQueue = s.bench.returnQueue := by
  unfold State.endSweep; dsimp only; (repeat' split) <;> simp
@[simp] theorem State.endSweep_bench_window (s : State) (w : Sweep) : (s.endSweep w).bench.window = s.bench.window := by
  unfold State.endSweep; dsimp only; (repeat' split) <;> simp
@[simp] theorem State.endSweep_bench_order (s : State) (w : Sweep) : (s.endSweep w).bench.order = s.bench.order := by
  unfold State.endSweep; dsimp only; (repeat' split) <;> simp
@[simp] theorem State.endSweep_bench_pointer (s : State) (w : Sweep) : (s.endSweep w).bench.pointer = s.bench.pointer := by
  unfold State.endSweep; dsimp only; (repeat' split) <;> simp
@[simp] theorem State.endSweep_bench_stream (s : State) (w : Sweep) : (s.endSweep w).bench.stream = s.bench.stream := by
  unfold State.endSweep; dsimp only; (repeat' split) <;> simp
@[simp] theorem State.endSweep_bench_lastOutcome (s : State) (w : Sweep) : (s.endSweep w).bench.lastOutcome = s.bench.lastOutcome := by
  unfold State.endSweep; dsimp only; (repeat' split) <;> simp
@[simp] theorem State.endSweep_bench_enables (s : State) (w : Sweep) : (s.endSweep w).bench.enables = s.bench.enables := by
  unfold State.endSweep; dsimp only; (repeat' split) <;> simp
@[simp] theorem State.endSweep_bench_selected (s : State) (w : Sweep) : (s.endSweep w).bench.selected = s.bench.selected := by
  unfold State.endSweep; dsimp only; (repeat' split) <;> simp
@[simp] theorem State.endSweep_bench_out (s : State) (w : Sweep) : (s.endSweep w).bench.out = s.bench.out := by
  unfold State.endSweep; dsimp only; (repeat' split) <;> simp
@[simp] theorem State.endSweep_runs_active (s : State) (w : Sweep) : (s.endSweep w).runs.active = s.runs.active := by
  unfold State.endSweep; dsimp only; (repeat' split) <;> simp
@[simp] theorem State.endSweep_runs_results (s : State) (w : Sweep) : (s.endSweep w).runs.results = s.runs.results := by
  unfold State.endSweep; dsimp only; (repeat' split) <;> simp
@[simp] theorem State.endSweep_runs_serial (s : State) (w : Sweep) : (s.endSweep w).runs.serial = s.runs.serial := by
  unfold State.endSweep; dsimp only; (repeat' split) <;> simp

/-! ### sweepStep -/

@[simp] theorem State.sweepStep_publishing (s : State) : (s.sweepStep).publishing = s.publishing := by
  unfold State.sweepStep; dsimp only; (repeat' split) <;> simp
@[simp] theorem State.sweepStep_settings (s : State) : (s.sweepStep).settings = s.settings := by
  unfold State.sweepStep; dsimp only; (repeat' split) <;> simp
@[simp] theorem State.sweepStep_capture (s : State) : (s.sweepStep).capture = s.capture := by
  unfold State.sweepStep; dsimp only; (repeat' split) <;> simp
@[simp] theorem State.sweepStep_index (s : State) : (s.sweepStep).index = s.index := by
  unfold State.sweepStep; dsimp only; (repeat' split) <;> simp
@[simp] theorem State.sweepStep_held (s : State) : (s.sweepStep).held = s.held := by
  unfold State.sweepStep; dsimp only; (repeat' split) <;> simp
@[simp] theorem State.sweepStep_autoRequests (s : State) : (s.sweepStep).autoRequests = s.autoRequests := by
  unfold State.sweepStep; dsimp only; (repeat' split) <;> simp
@[simp] theorem State.sweepStep_ff (s : State) : (s.sweepStep).ff = s.ff := by
  unfold State.sweepStep; dsimp only; (repeat' split) <;> simp
@[simp] theorem State.sweepStep_exclusions (s : State) : (s.sweepStep).exclusions = s.exclusions := by
  unfold State.sweepStep; dsimp only; (repeat' split) <;> simp
@[simp] theorem State.sweepStep_perms (s : State) : (s.sweepStep).perms = s.perms := by
  unfold State.sweepStep; dsimp only; (repeat' split) <;> simp
@[simp] theorem State.sweepStep_publishAtOnce (s : State) : (s.sweepStep).publishAtOnce = s.publishAtOnce := by
  unfold State.sweepStep; dsimp only; (repeat' split) <;> simp
@[simp] theorem State.sweepStep_autoOrder (s : State) : (s.sweepStep).autoOrder = s.autoOrder := by
  unfold State.sweepStep; dsimp only; (repeat' split) <;> simp
@[simp] theorem State.sweepStep_pending (s : State) : (s.sweepStep).pending = s.pending := by
  unfold State.sweepStep; dsimp only; (repeat' split) <;> simp
@[simp] theorem State.sweepStep_bench_assembly (s : State) : (s.sweepStep).bench.assembly = s.bench.assembly := by
  unfold State.sweepStep; dsimp only; (repeat' split) <;> simp
@[simp] theorem State.sweepStep_bench_returnQueue (s : State) : (s.sweepStep).bench.returnQueue = s.bench.returnQueue := by
  unfold State.sweepStep; dsimp only; (repeat' split) <;> simp
@[simp] theorem State.sweepStep_bench_window (s : State) : (s.sweepStep).bench.window = s.bench.window := by
  unfold State.sweepStep; dsimp only; (repeat' split) <;> simp
@[simp] theorem State.sweepStep_bench_order (s : State) : (s.sweepStep).bench.order = s.bench.order := by
  unfold State.sweepStep; dsimp only; (repeat' split) <;> simp
@[simp] theorem State.sweepStep_bench_pointer (s : State) : (s.sweepStep).bench.pointer = s.bench.pointer := by
  unfold State.sweepStep; dsimp only; (repeat' split) <;> simp
@[simp] theorem State.sweepStep_bench_stream (s : State) : (s.sweepStep).bench.stream = s.bench.stream := by
  unfold State.sweepStep; dsimp only; (repeat' split) <;> simp
@[simp] theorem State.sweepStep_bench_lastOutcome (s : State) : (s.sweepStep).bench.lastOutcome = s.bench.lastOutcome := by
  unfold State.sweepStep; dsimp only; (repeat' split) <;> simp
@[simp] theorem State.sweepStep_bench_enables (s : State) : (s.sweepStep).bench.enables = s.bench.enables := by
  unfold State.sweepStep; dsimp only; (repeat' split) <;> simp
@[simp] theorem State.sweepStep_bench_selected (s : State) : (s.sweepStep).bench.selected = s.bench.selected := by
  unfold State.sweepStep; dsimp only; (repeat' split) <;> simp
@[simp] theorem State.sweepStep_bench_out (s : State) : (s.sweepStep).bench.out = s.bench.out := by
  unfold State.sweepStep; dsimp only; (repeat' split) <;> simp
@[simp] theorem State.sweepStep_runs_active (s : State) : (s.sweepStep).runs.active = s.runs.active := by
  unfold State.sweepStep; dsimp only; (repeat' split) <;> simp
@[simp] theorem State.sweepStep_runs_results (s : State) : (s.sweepStep).runs.results = s.runs.results := by
  unfold State.sweepStep; dsimp only; (repeat' split) <;> simp
@[simp] theorem State.sweepStep_runs_serial (s : State) : (s.sweepStep).runs.serial = s.runs.serial := by
  unfold State.sweepStep; dsimp only; (repeat' split) <;> simp

/-! ### readReturnQueue -/

@[simp] theorem State.readReturnQueue_map (s : State) : (s.readReturnQueue).map = s.map := by
  unfold State.readReturnQueue; dsimp only; (repeat' split) <;> simp
@[simp] theorem State.readReturnQueue_profiles (s : State) : (s.readReturnQueue).profiles = s.profiles := by
  unfold State.readReturnQueue; dsimp only; (repeat' split) <;> simp
@[simp] theorem State.readReturnQueue_publishing (s : State) : (s.readReturnQueue).publishing = s.publishing := by
  unfold State.readReturnQueue; dsimp only; (repeat' split) <;> simp
@[simp] theorem State.readReturnQueue_settings (s : State) : (s.readReturnQueue).settings = s.settings := by
  unfold State.readReturnQueue; dsimp only; (repeat' split) <;> simp
@[simp] theorem State.readReturnQueue_sweep (s : State) : (s.readReturnQueue).sweep = s.sweep := by
  unfold State.readReturnQueue; dsimp only; (repeat' split) <;> simp
@[simp] theorem State.readReturnQueue_capture (s : State) : (s.readReturnQueue).capture = s.capture := by
  unfold State.readReturnQueue; dsimp only; (repeat' split) <;> simp
@[simp] theorem State.readReturnQueue_index (s : State) : (s.readReturnQueue).index = s.index := by
  unfold State.readReturnQueue; dsimp only; (repeat' split) <;> simp
@[simp] theorem State.readReturnQueue_held (s : State) : (s.readReturnQueue).held = s.held := by
  unfold State.readReturnQueue; dsimp only; (repeat' split) <;> simp
@[simp] theorem State.readReturnQueue_autoRequests (s : State) : (s.readReturnQueue).autoRequests = s.autoRequests := by
  unfold State.readReturnQueue; dsimp only; (repeat' split) <;> simp
@[simp] theorem State.readReturnQueue_ff (s : State) : (s.readReturnQueue).ff = s.ff := by
  unfold State.readReturnQueue; dsimp only; (repeat' split) <;> simp
@[simp] theorem State.readReturnQueue_exclusions (s : State) : (s.readReturnQueue).exclusions = s.exclusions := by
  unfold State.readReturnQueue; dsimp only; (repeat' split) <;> simp
@[simp] theorem State.readReturnQueue_perms (s : State) : (s.readReturnQueue).perms = s.perms := by
  unfold State.readReturnQueue; dsimp only; (repeat' split) <;> simp
@[simp] theorem State.readReturnQueue_startup (s : State) : (s.readReturnQueue).startup = s.startup := by
  unfold State.readReturnQueue; dsimp only; (repeat' split) <;> simp
@[simp] theorem State.readReturnQueue_publishAtOnce (s : State) : (s.readReturnQueue).publishAtOnce = s.publishAtOnce := by
  unfold State.readReturnQueue; dsimp only; (repeat' split) <;> simp
@[simp] theorem State.readReturnQueue_autoOrder (s : State) : (s.readReturnQueue).autoOrder = s.autoOrder := by
  unfold State.readReturnQueue; dsimp only; (repeat' split) <;> simp
@[simp] theorem State.readReturnQueue_pending (s : State) : (s.readReturnQueue).pending = s.pending := by
  unfold State.readReturnQueue; dsimp only; (repeat' split) <;> simp
@[simp] theorem State.readReturnQueue_bench_assembly (s : State) : (s.readReturnQueue).bench.assembly = s.bench.assembly := by
  unfold State.readReturnQueue; dsimp only; (repeat' split) <;> simp
@[simp] theorem State.readReturnQueue_bench_window (s : State) : (s.readReturnQueue).bench.window = s.bench.window := by
  unfold State.readReturnQueue; dsimp only; (repeat' split) <;> simp
@[simp] theorem State.readReturnQueue_bench_order (s : State) : (s.readReturnQueue).bench.order = s.bench.order := by
  unfold State.readReturnQueue; dsimp only; (repeat' split) <;> simp
@[simp] theorem State.readReturnQueue_bench_pointer (s : State) : (s.readReturnQueue).bench.pointer = s.bench.pointer := by
  unfold State.readReturnQueue; dsimp only; (repeat' split) <;> simp
@[simp] theorem State.readReturnQueue_bench_lastOutcome (s : State) : (s.readReturnQueue).bench.lastOutcome = s.bench.lastOutcome := by
  unfold State.readReturnQueue; dsimp only; (repeat' split) <;> simp
@[simp] theorem State.readReturnQueue_bench_flags (s : State) : (s.readReturnQueue).bench.flags = s.bench.flags := by
  unfold State.readReturnQueue; dsimp only; (repeat' split) <;> simp
@[simp] theorem State.readReturnQueue_bench_enables (s : State) : (s.readReturnQueue).bench.enables = s.bench.enables := by
  unfold State.readReturnQueue; dsimp only; (repeat' split) <;> simp
@[simp] theorem State.readReturnQueue_bench_selected (s : State) : (s.readReturnQueue).bench.selected = s.bench.selected := by
  unfold State.readReturnQueue; dsimp only; (repeat' split) <;> simp
@[simp] theorem State.readReturnQueue_runs_queue (s : State) : (s.readReturnQueue).runs.queue = s.runs.queue := by
  unfold State.readReturnQueue; dsimp only; (repeat' split) <;> simp
@[simp] theorem State.readReturnQueue_runs_active (s : State) : (s.readReturnQueue).runs.active = s.runs.active := by
  unfold State.readReturnQueue; dsimp only; (repeat' split) <;> simp
@[simp] theorem State.readReturnQueue_runs_serial (s : State) : (s.readReturnQueue).runs.serial = s.runs.serial := by
  unfold State.readReturnQueue; dsimp only; (repeat' split) <;> simp

/-! ### readStatus -/

@[simp] theorem State.readStatus_map (s : State) : (s.readStatus).map = s.map := by
  unfold State.readStatus; dsimp only; (repeat' split) <;> simp
@[simp] theorem State.readStatus_profiles (s : State) : (s.readStatus).profiles = s.profiles := by
  unfold State.readStatus; dsimp only; (repeat' split) <;> simp
@[simp] theorem State.readStatus_publishing (s : State) : (s.readStatus).publishing = s.publishing := by
  unfold State.readStatus; dsimp only; (repeat' split) <;> simp
@[simp] theorem State.readStatus_settings (s : State) : (s.readStatus).settings = s.settings := by
  unfold State.readStatus; dsimp only; (repeat' split) <;> simp
@[simp] theorem State.readStatus_sweep (s : State) : (s.readStatus).sweep = s.sweep := by
  unfold State.readStatus; dsimp only; (repeat' split) <;> simp
@[simp] theorem State.readStatus_capture (s : State) : (s.readStatus).capture = s.capture := by
  unfold State.readStatus; dsimp only; (repeat' split) <;> simp
@[simp] theorem State.readStatus_index (s : State) : (s.readStatus).index = s.index := by
  unfold State.readStatus; dsimp only; (repeat' split) <;> simp
@[simp] theorem State.readStatus_held (s : State) : (s.readStatus).held = s.held := by
  unfold State.readStatus; dsimp only; (repeat' split) <;> simp
@[simp] theorem State.readStatus_autoRequests (s : State) : (s.readStatus).autoRequests = s.autoRequests := by
  unfold State.readStatus; dsimp only; (repeat' split) <;> simp
@[simp] theorem State.readStatus_runs (s : State) : (s.readStatus).runs = s.runs := by
  unfold State.readStatus; dsimp only; (repeat' split) <;> simp
@[simp] theorem State.readStatus_ff (s : State) : (s.readStatus).ff = s.ff := by
  unfold State.readStatus; dsimp only; (repeat' split) <;> simp
@[simp] theorem State.readStatus_exclusions (s : State) : (s.readStatus).exclusions = s.exclusions := by
  unfold State.readStatus; dsimp only; (repeat' split) <;> simp
@[simp] theorem State.readStatus_perms (s : State) : (s.readStatus).perms = s.perms := by
  unfold State.readStatus; dsimp only; (repeat' split) <;> simp
@[simp] theorem State.readStatus_startup (s : State) : (s.readStatus).startup = s.startup := by
  unfold State.readStatus; dsimp only; (repeat' split) <;> simp
@[simp] theorem State.readStatus_publishAtOnce (s : State) : (s.readStatus).publishAtOnce = s.publishAtOnce := by
  unfold State.readStatus; dsimp only; (repeat' split) <;> simp
@[simp] theorem State.readStatus_autoOrder (s : State) : (s.readStatus).autoOrder = s.autoOrder := by
  unfold State.readStatus; dsimp only; (repeat' split) <;> simp
@[simp] theorem State.readStatus_pending (s : State) : (s.readStatus).pending = s.pending := by
  unfold State.readStatus; dsimp only; (repeat' split) <;> simp
@[simp] theorem State.readStatus_bench_assembly (s : State) : (s.readStatus).bench.assembly = s.bench.assembly := by
  unfold State.readStatus; dsimp only; (repeat' split) <;> simp
@[simp] theorem State.readStatus_bench_returnQueue (s : State) : (s.readStatus).bench.returnQueue = s.bench.returnQueue := by
  unfold State.readStatus; dsimp only; (repeat' split) <;> simp
@[simp] theorem State.readStatus_bench_window (s : State) : (s.readStatus).bench.window = s.bench.window := by
  unfold State.readStatus; dsimp only; (repeat' split) <;> simp
@[simp] theorem State.readStatus_bench_order (s : State) : (s.readStatus).bench.order = s.bench.order := by
  unfold State.readStatus; dsimp only; (repeat' split) <;> simp
@[simp] theorem State.readStatus_bench_pointer (s : State) : (s.readStatus).bench.pointer = s.bench.pointer := by
  unfold State.readStatus; dsimp only; (repeat' split) <;> simp
@[simp] theorem State.readStatus_bench_stream (s : State) : (s.readStatus).bench.stream = s.bench.stream := by
  unfold State.readStatus; dsimp only; (repeat' split) <;> simp
@[simp] theorem State.readStatus_bench_lastOutcome (s : State) : (s.readStatus).bench.lastOutcome = s.bench.lastOutcome := by
  unfold State.readStatus; dsimp only; (repeat' split) <;> simp
@[simp] theorem State.readStatus_bench_enables (s : State) : (s.readStatus).bench.enables = s.bench.enables := by
  unfold State.readStatus; dsimp only; (repeat' split) <;> simp
@[simp] theorem State.readStatus_bench_selected (s : State) : (s.readStatus).bench.selected = s.bench.selected := by
  unfold State.readStatus; dsimp only; (repeat' split) <;> simp

/-! ### applyGeometry -/

@[simp] theorem State.applyGeometry_publishing (s : State) (heads wedges : Nat) : (s.applyGeometry heads wedges).publishing = s.publishing := by
  unfold State.applyGeometry; dsimp only; simp
@[simp] theorem State.applyGeometry_index (s : State) (heads wedges : Nat) : (s.applyGeometry heads wedges).index = s.index := by
  unfold State.applyGeometry; dsimp only; simp
@[simp] theorem State.applyGeometry_held (s : State) (heads wedges : Nat) : (s.applyGeometry heads wedges).held = s.held := by
  unfold State.applyGeometry; dsimp only; simp
@[simp] theorem State.applyGeometry_autoRequests (s : State) (heads wedges : Nat) : (s.applyGeometry heads wedges).autoRequests = s.autoRequests := by
  unfold State.applyGeometry; dsimp only; simp
@[simp] theorem State.applyGeometry_runs (s : State) (heads wedges : Nat) : (s.applyGeometry heads wedges).runs = s.runs := by
  unfold State.applyGeometry; dsimp only; simp
@[simp] theorem State.applyGeometry_ff (s : State) (heads wedges : Nat) : (s.applyGeometry heads wedges).ff = s.ff := by
  unfold State.applyGeometry; dsimp only; simp
@[simp] theorem State.applyGeometry_perms (s : State) (heads wedges : Nat) : (s.applyGeometry heads wedges).perms = s.perms := by
  unfold State.applyGeometry; dsimp only; simp
@[simp] theorem State.applyGeometry_startup (s : State) (heads wedges : Nat) : (s.applyGeometry heads wedges).startup = s.startup := by
  unfold State.applyGeometry; dsimp only; simp
@[simp] theorem State.applyGeometry_publishAtOnce (s : State) (heads wedges : Nat) : (s.applyGeometry heads wedges).publishAtOnce = s.publishAtOnce := by
  unfold State.applyGeometry; dsimp only; simp
@[simp] theorem State.applyGeometry_autoOrder (s : State) (heads wedges : Nat) : (s.applyGeometry heads wedges).autoOrder = s.autoOrder := by
  unfold State.applyGeometry; dsimp only; simp
@[simp] theorem State.applyGeometry_pending (s : State) (heads wedges : Nat) : (s.applyGeometry heads wedges).pending = s.pending := by
  unfold State.applyGeometry; dsimp only; simp
@[simp] theorem State.applyGeometry_bench_assembly (s : State) (heads wedges : Nat) : (s.applyGeometry heads wedges).bench.assembly = s.bench.assembly := by
  unfold State.applyGeometry; dsimp only; simp
@[simp] theorem State.applyGeometry_bench_returnQueue (s : State) (heads wedges : Nat) : (s.applyGeometry heads wedges).bench.returnQueue = s.bench.returnQueue := by
  unfold State.applyGeometry; dsimp only; simp
@[simp] theorem State.applyGeometry_bench_order (s : State) (heads wedges : Nat) : (s.applyGeometry heads wedges).bench.order = s.bench.order := by
  unfold State.applyGeometry; dsimp only; simp
@[simp] theorem State.applyGeometry_bench_stream (s : State) (heads wedges : Nat) : (s.applyGeometry heads wedges).bench.stream = s.bench.stream := by
  unfold State.applyGeometry; dsimp only; simp
@[simp] theorem State.applyGeometry_bench_lastOutcome (s : State) (heads wedges : Nat) : (s.applyGeometry heads wedges).bench.lastOutcome = s.bench.lastOutcome := by
  unfold State.applyGeometry; dsimp only; simp
@[simp] theorem State.applyGeometry_bench_flags (s : State) (heads wedges : Nat) : (s.applyGeometry heads wedges).bench.flags = s.bench.flags := by
  unfold State.applyGeometry; dsimp only; simp
@[simp] theorem State.applyGeometry_bench_enables (s : State) (heads wedges : Nat) : (s.applyGeometry heads wedges).bench.enables = s.bench.enables := by
  unfold State.applyGeometry; dsimp only; simp
@[simp] theorem State.applyGeometry_bench_selected (s : State) (heads wedges : Nat) : (s.applyGeometry heads wedges).bench.selected = s.bench.selected := by
  unfold State.applyGeometry; dsimp only; simp
@[simp] theorem State.applyGeometry_bench_out (s : State) (heads wedges : Nat) : (s.applyGeometry heads wedges).bench.out = s.bench.out := by
  unfold State.applyGeometry; dsimp only; simp

/-! ### cmdSetGeometry -/

@[simp] theorem State.cmdSetGeometry_publishing (s : State) (heads wedges : Word) : (s.cmdSetGeometry heads wedges).publishing = s.publishing := by
  unfold State.cmdSetGeometry State.judged; dsimp only; (repeat' split) <;> simp
@[simp] theorem State.cmdSetGeometry_index (s : State) (heads wedges : Word) : (s.cmdSetGeometry heads wedges).index = s.index := by
  unfold State.cmdSetGeometry State.judged; dsimp only; (repeat' split) <;> simp
@[simp] theorem State.cmdSetGeometry_held (s : State) (heads wedges : Word) : (s.cmdSetGeometry heads wedges).held = s.held := by
  unfold State.cmdSetGeometry State.judged; dsimp only; (repeat' split) <;> simp
@[simp] theorem State.cmdSetGeometry_autoRequests (s : State) (heads wedges : Word) : (s.cmdSetGeometry heads wedges).autoRequests = s.autoRequests := by
  unfold State.cmdSetGeometry State.judged; dsimp only; (repeat' split) <;> simp
@[simp] theorem State.cmdSetGeometry_runs (s : State) (heads wedges : Word) : (s.cmdSetGeometry heads wedges).runs = s.runs := by
  unfold State.cmdSetGeometry State.judged; dsimp only; (repeat' split) <;> simp
@[simp] theorem State.cmdSetGeometry_ff (s : State) (heads wedges : Word) : (s.cmdSetGeometry heads wedges).ff = s.ff := by
  unfold State.cmdSetGeometry State.judged; dsimp only; (repeat' split) <;> simp
@[simp] theorem State.cmdSetGeometry_perms (s : State) (heads wedges : Word) : (s.cmdSetGeometry heads wedges).perms = s.perms := by
  unfold State.cmdSetGeometry State.judged; dsimp only; (repeat' split) <;> simp
@[simp] theorem State.cmdSetGeometry_startup (s : State) (heads wedges : Word) : (s.cmdSetGeometry heads wedges).startup = s.startup := by
  unfold State.cmdSetGeometry State.judged; dsimp only; (repeat' split) <;> simp
@[simp] theorem State.cmdSetGeometry_publishAtOnce (s : State) (heads wedges : Word) : (s.cmdSetGeometry heads wedges).publishAtOnce = s.publishAtOnce := by
  unfold State.cmdSetGeometry State.judged; dsimp only; (repeat' split) <;> simp
@[simp] theorem State.cmdSetGeometry_autoOrder (s : State) (heads wedges : Word) : (s.cmdSetGeometry heads wedges).autoOrder = s.autoOrder := by
  unfold State.cmdSetGeometry State.judged; dsimp only; (repeat' split) <;> simp
@[simp] theorem State.cmdSetGeometry_pending (s : State) (heads wedges : Word) : (s.cmdSetGeometry heads wedges).pending = s.pending := by
  unfold State.cmdSetGeometry State.judged; dsimp only; (repeat' split) <;> simp
@[simp] theorem State.cmdSetGeometry_bench_assembly (s : State) (heads wedges : Word) : (s.cmdSetGeometry heads wedges).bench.assembly = s.bench.assembly := by
  unfold State.cmdSetGeometry State.judged; dsimp only; (repeat' split) <;> simp
@[simp] theorem State.cmdSetGeometry_bench_returnQueue (s : State) (heads wedges : Word) : (s.cmdSetGeometry heads wedges).bench.returnQueue = s.bench.returnQueue := by
  unfold State.cmdSetGeometry State.judged; dsimp only; (repeat' split) <;> simp
@[simp] theorem State.cmdSetGeometry_bench_order (s : State) (heads wedges : Word) : (s.cmdSetGeometry heads wedges).bench.order = s.bench.order := by
  unfold State.cmdSetGeometry State.judged; dsimp only; (repeat' split) <;> simp
@[simp] theorem State.cmdSetGeometry_bench_stream (s : State) (heads wedges : Word) : (s.cmdSetGeometry heads wedges).bench.stream = s.bench.stream := by
  unfold State.cmdSetGeometry State.judged; dsimp only; (repeat' split) <;> simp
@[simp] theorem State.cmdSetGeometry_bench_enables (s : State) (heads wedges : Word) : (s.cmdSetGeometry heads wedges).bench.enables = s.bench.enables := by
  unfold State.cmdSetGeometry State.judged; dsimp only; (repeat' split) <;> simp
@[simp] theorem State.cmdSetGeometry_bench_selected (s : State) (heads wedges : Word) : (s.cmdSetGeometry heads wedges).bench.selected = s.bench.selected := by
  unfold State.cmdSetGeometry State.judged; dsimp only; (repeat' split) <;> simp
@[simp] theorem State.cmdSetGeometry_bench_out (s : State) (heads wedges : Word) : (s.cmdSetGeometry heads wedges).bench.out = s.bench.out := by
  unfold State.cmdSetGeometry State.judged; dsimp only; (repeat' split) <;> simp

/-! ### cmdFill -/

@[simp] theorem State.cmdFill_map (s : State) (value state : Word) : (s.cmdFill value state).map = s.map := by
  unfold State.cmdFill State.judged; dsimp only; (repeat' split) <;> simp
@[simp] theorem State.cmdFill_profiles (s : State) (value state : Word) : (s.cmdFill value state).profiles = s.profiles := by
  unfold State.cmdFill State.judged; dsimp only; (repeat' split) <;> simp
@[simp] theorem State.cmdFill_publishing (s : State) (value state : Word) : (s.cmdFill value state).publishing = s.publishing := by
  unfold State.cmdFill State.judged; dsimp only; (repeat' split) <;> simp
@[simp] theorem State.cmdFill_settings (s : State) (value state : Word) : (s.cmdFill value state).settings = s.settings := by
  unfold State.cmdFill State.judged; dsimp only; (repeat' split) <;> simp
@[simp] theorem State.cmdFill_capture (s : State) (value state : Word) : (s.cmdFill value state).capture = s.capture := by
  unfold State.cmdFill State.judged; dsimp only; (repeat' split) <;> simp
@[simp] theorem State.cmdFill_index (s : State) (value state : Word) : (s.cmdFill value state).index = s.index := by
  unfold State.cmdFill State.judged; dsimp only; (repeat' split) <;> simp
@[simp] theorem State.cmdFill_held (s : State) (value state : Word) : (s.cmdFill value state).held = s.held := by
  unfold State.cmdFill State.judged; dsimp only; (repeat' split) <;> simp
@[simp] theorem State.cmdFill_autoRequests (s : State) (value state : Word) : (s.cmdFill value state).autoRequests = s.autoRequests := by
  unfold State.cmdFill State.judged; dsimp only; (repeat' split) <;> simp
@[simp] theorem State.cmdFill_runs (s : State) (value state : Word) : (s.cmdFill value state).runs = s.runs := by
  unfold State.cmdFill State.judged; dsimp only; (repeat' split) <;> simp
@[simp] theorem State.cmdFill_ff (s : State) (value state : Word) : (s.cmdFill value state).ff = s.ff := by
  unfold State.cmdFill State.judged; dsimp only; (repeat' split) <;> simp
@[simp] theorem State.cmdFill_exclusions (s : State) (value state : Word) : (s.cmdFill value state).exclusions = s.exclusions := by
  unfold State.cmdFill State.judged; dsimp only; (repeat' split) <;> simp
@[simp] theorem State.cmdFill_perms (s : State) (value state : Word) : (s.cmdFill value state).perms = s.perms := by
  unfold State.cmdFill State.judged; dsimp only; (repeat' split) <;> simp
@[simp] theorem State.cmdFill_startup (s : State) (value state : Word) : (s.cmdFill value state).startup = s.startup := by
  unfold State.cmdFill State.judged; dsimp only; (repeat' split) <;> simp
@[simp] theorem State.cmdFill_publishAtOnce (s : State) (value state : Word) : (s.cmdFill value state).publishAtOnce = s.publishAtOnce := by
  unfold State.cmdFill State.judged; dsimp only; (repeat' split) <;> simp
@[simp] theorem State.cmdFill_autoOrder (s : State) (value state : Word) : (s.cmdFill value state).autoOrder = s.autoOrder := by
  unfold State.cmdFill State.judged; dsimp only; (repeat' split) <;> simp
@[simp] theorem State.cmdFill_pending (s : State) (value state : Word) : (s.cmdFill value state).pending = s.pending := by
  unfold State.cmdFill State.judged; dsimp only; (repeat' split) <;> simp
@[simp] theorem State.cmdFill_bench_assembly (s : State) (value state : Word) : (s.cmdFill value state).bench.assembly = s.bench.assembly := by
  unfold State.cmdFill State.judged; dsimp only; (repeat' split) <;> simp
@[simp] theorem State.cmdFill_bench_returnQueue (s : State) (value state : Word) : (s.cmdFill value state).bench.returnQueue = s.bench.returnQueue := by
  unfold State.cmdFill State.judged; dsimp only; (repeat' split) <;> simp
@[simp] theorem State.cmdFill_bench_window (s : State) (value state : Word) : (s.cmdFill value state).bench.window = s.bench.window := by
  unfold State.cmdFill State.judged; dsimp only; (repeat' split) <;> simp
@[simp] theorem State.cmdFill_bench_order (s : State) (value state : Word) : (s.cmdFill value state).bench.order = s.bench.order := by
  unfold State.cmdFill State.judged; dsimp only; (repeat' split) <;> simp
@[simp] theorem State.cmdFill_bench_pointer (s : State) (value state : Word) : (s.cmdFill value state).bench.pointer = s.bench.pointer := by
  unfold State.cmdFill State.judged; dsimp only; (repeat' split) <;> simp
@[simp] theorem State.cmdFill_bench_stream (s : State) (value state : Word) : (s.cmdFill value state).bench.stream = s.bench.stream := by
  unfold State.cmdFill State.judged; dsimp only; (repeat' split) <;> simp
@[simp] theorem State.cmdFill_bench_enables (s : State) (value state : Word) : (s.cmdFill value state).bench.enables = s.bench.enables := by
  unfold State.cmdFill State.judged; dsimp only; (repeat' split) <;> simp
@[simp] theorem State.cmdFill_bench_selected (s : State) (value state : Word) : (s.cmdFill value state).bench.selected = s.bench.selected := by
  unfold State.cmdFill State.judged; dsimp only; (repeat' split) <;> simp
@[simp] theorem State.cmdFill_bench_out (s : State) (value state : Word) : (s.cmdFill value state).bench.out = s.bench.out := by
  unfold State.cmdFill State.judged; dsimp only; (repeat' split) <;> simp

/-! ### cmdSetWindow -/

@[simp] theorem State.cmdSetWindow_map (s : State) (a b c d : Word) : (s.cmdSetWindow a b c d).map = s.map := by
  unfold State.cmdSetWindow State.judged; dsimp only; (repeat' split) <;> simp
@[simp] theorem State.cmdSetWindow_profiles (s : State) (a b c d : Word) : (s.cmdSetWindow a b c d).profiles = s.profiles := by
  unfold State.cmdSetWindow State.judged; dsimp only; (repeat' split) <;> simp
@[simp] theorem State.cmdSetWindow_publishing (s : State) (a b c d : Word) : (s.cmdSetWindow a b c d).publishing = s.publishing := by
  unfold State.cmdSetWindow State.judged; dsimp only; (repeat' split) <;> simp
@[simp] theorem State.cmdSetWindow_settings (s : State) (a b c d : Word) : (s.cmdSetWindow a b c d).settings = s.settings := by
  unfold State.cmdSetWindow State.judged; dsimp only; (repeat' split) <;> simp
@[simp] theorem State.cmdSetWindow_sweep (s : State) (a b c d : Word) : (s.cmdSetWindow a b c d).sweep = s.sweep := by
  unfold State.cmdSetWindow State.judged; dsimp only; (repeat' split) <;> simp
@[simp] theorem State.cmdSetWindow_capture (s : State) (a b c d : Word) : (s.cmdSetWindow a b c d).capture = s.capture := by
  unfold State.cmdSetWindow State.judged; dsimp only; (repeat' split) <;> simp
@[simp] theorem State.cmdSetWindow_index (s : State) (a b c d : Word) : (s.cmdSetWindow a b c d).index = s.index := by
  unfold State.cmdSetWindow State.judged; dsimp only; (repeat' split) <;> simp
@[simp] theorem State.cmdSetWindow_held (s : State) (a b c d : Word) : (s.cmdSetWindow a b c d).held = s.held := by
  unfold State.cmdSetWindow State.judged; dsimp only; (repeat' split) <;> simp
@[simp] theorem State.cmdSetWindow_autoRequests (s : State) (a b c d : Word) : (s.cmdSetWindow a b c d).autoRequests = s.autoRequests := by
  unfold State.cmdSetWindow State.judged; dsimp only; (repeat' split) <;> simp
@[simp] theorem State.cmdSetWindow_runs (s : State) (a b c d : Word) : (s.cmdSetWindow a b c d).runs = s.runs := by
  unfold State.cmdSetWindow State.judged; dsimp only; (repeat' split) <;> simp
@[simp] theorem State.cmdSetWindow_ff (s : State) (a b c d : Word) : (s.cmdSetWindow a b c d).ff = s.ff := by
  unfold State.cmdSetWindow State.judged; dsimp only; (repeat' split) <;> simp
@[simp] theorem State.cmdSetWindow_exclusions (s : State) (a b c d : Word) : (s.cmdSetWindow a b c d).exclusions = s.exclusions := by
  unfold State.cmdSetWindow State.judged; dsimp only; (repeat' split) <;> simp
@[simp] theorem State.cmdSetWindow_perms (s : State) (a b c d : Word) : (s.cmdSetWindow a b c d).perms = s.perms := by
  unfold State.cmdSetWindow State.judged; dsimp only; (repeat' split) <;> simp
@[simp] theorem State.cmdSetWindow_startup (s : State) (a b c d : Word) : (s.cmdSetWindow a b c d).startup = s.startup := by
  unfold State.cmdSetWindow State.judged; dsimp only; (repeat' split) <;> simp
@[simp] theorem State.cmdSetWindow_publishAtOnce (s : State) (a b c d : Word) : (s.cmdSetWindow a b c d).publishAtOnce = s.publishAtOnce := by
  unfold State.cmdSetWindow State.judged; dsimp only; (repeat' split) <;> simp
@[simp] theorem State.cmdSetWindow_autoOrder (s : State) (a b c d : Word) : (s.cmdSetWindow a b c d).autoOrder = s.autoOrder := by
  unfold State.cmdSetWindow State.judged; dsimp only; (repeat' split) <;> simp
@[simp] theorem State.cmdSetWindow_pending (s : State) (a b c d : Word) : (s.cmdSetWindow a b c d).pending = s.pending := by
  unfold State.cmdSetWindow State.judged; dsimp only; (repeat' split) <;> simp
@[simp] theorem State.cmdSetWindow_bench_assembly (s : State) (a b c d : Word) : (s.cmdSetWindow a b c d).bench.assembly = s.bench.assembly := by
  unfold State.cmdSetWindow State.judged; dsimp only; (repeat' split) <;> simp
@[simp] theorem State.cmdSetWindow_bench_returnQueue (s : State) (a b c d : Word) : (s.cmdSetWindow a b c d).bench.returnQueue = s.bench.returnQueue := by
  unfold State.cmdSetWindow State.judged; dsimp only; (repeat' split) <;> simp
@[simp] theorem State.cmdSetWindow_bench_order (s : State) (a b c d : Word) : (s.cmdSetWindow a b c d).bench.order = s.bench.order := by
  unfold State.cmdSetWindow State.judged; dsimp only; (repeat' split) <;> simp
@[simp] theorem State.cmdSetWindow_bench_stream (s : State) (a b c d : Word) : (s.cmdSetWindow a b c d).bench.stream = s.bench.stream := by
  unfold State.cmdSetWindow State.judged; dsimp only; (repeat' split) <;> simp
@[simp] theorem State.cmdSetWindow_bench_enables (s : State) (a b c d : Word) : (s.cmdSetWindow a b c d).bench.enables = s.bench.enables := by
  unfold State.cmdSetWindow State.judged; dsimp only; (repeat' split) <;> simp
@[simp] theorem State.cmdSetWindow_bench_selected (s : State) (a b c d : Word) : (s.cmdSetWindow a b c d).bench.selected = s.bench.selected := by
  unfold State.cmdSetWindow State.judged; dsimp only; (repeat' split) <;> simp
@[simp] theorem State.cmdSetWindow_bench_out (s : State) (a b c d : Word) : (s.cmdSetWindow a b c d).bench.out = s.bench.out := by
  unfold State.cmdSetWindow State.judged; dsimp only; (repeat' split) <;> simp

/-! ### cmdSetAccessOrder -/

@[simp] theorem State.cmdSetAccessOrder_map (s : State) (a b c : Word) : (s.cmdSetAccessOrder a b c).map = s.map := by
  unfold State.cmdSetAccessOrder State.judged; dsimp only; (repeat' split) <;> simp
@[simp] theorem State.cmdSetAccessOrder_profiles (s : State) (a b c : Word) : (s.cmdSetAccessOrder a b c).profiles = s.profiles := by
  unfold State.cmdSetAccessOrder State.judged; dsimp only; (repeat' split) <;> simp
@[simp] theorem State.cmdSetAccessOrder_publishing (s : State) (a b c : Word) : (s.cmdSetAccessOrder a b c).publishing = s.publishing := by
  unfold State.cmdSetAccessOrder State.judged; dsimp only; (repeat' split) <;> simp
@[simp] theorem State.cmdSetAccessOrder_settings (s : State) (a b c : Word) : (s.cmdSetAccessOrder a b c).settings = s.settings := by
  unfold State.cmdSetAccessOrder State.judged; dsimp only; (repeat' split) <;> simp
@[simp] theorem State.cmdSetAccessOrder_sweep (s : State) (a b c : Word) : (s.cmdSetAccessOrder a b c).sweep = s.sweep := by
  unfold State.cmdSetAccessOrder State.judged; dsimp only; (repeat' split) <;> simp
@[simp] theorem State.cmdSetAccessOrder_capture (s : State) (a b c : Word) : (s.cmdSetAccessOrder a b c).capture = s.capture := by
  unfold State.cmdSetAccessOrder State.judged; dsimp only; (repeat' split) <;> simp
@[simp] theorem State.cmdSetAccessOrder_index (s : State) (a b c : Word) : (s.cmdSetAccessOrder a b c).index = s.index := by
  unfold State.cmdSetAccessOrder State.judged; dsimp only; (repeat' split) <;> simp
@[simp] theorem State.cmdSetAccessOrder_held (s : State) (a b c : Word) : (s.cmdSetAccessOrder a b c).held = s.held := by
  unfold State.cmdSetAccessOrder State.judged; dsimp only; (repeat' split) <;> simp
@[simp] theorem State.cmdSetAccessOrder_autoRequests (s : State) (a b c : Word) : (s.cmdSetAccessOrder a b c).autoRequests = s.autoRequests := by
  unfold State.cmdSetAccessOrder State.judged; dsimp only; (repeat' split) <;> simp
@[simp] theorem State.cmdSetAccessOrder_runs (s : State) (a b c : Word) : (s.cmdSetAccessOrder a b c).runs = s.runs := by
  unfold State.cmdSetAccessOrder State.judged; dsimp only; (repeat' split) <;> simp
@[simp] theorem State.cmdSetAccessOrder_ff (s : State) (a b c : Word) : (s.cmdSetAccessOrder a b c).ff = s.ff := by
  unfold State.cmdSetAccessOrder State.judged; dsimp only; (repeat' split) <;> simp
@[simp] theorem State.cmdSetAccessOrder_exclusions (s : State) (a b c : Word) : (s.cmdSetAccessOrder a b c).exclusions = s.exclusions := by
  unfold State.cmdSetAccessOrder State.judged; dsimp only; (repeat' split) <;> simp
@[simp] theorem State.cmdSetAccessOrder_perms (s : State) (a b c : Word) : (s.cmdSetAccessOrder a b c).perms = s.perms := by
  unfold State.cmdSetAccessOrder State.judged; dsimp only; (repeat' split) <;> simp
@[simp] theorem State.cmdSetAccessOrder_startup (s : State) (a b c : Word) : (s.cmdSetAccessOrder a b c).startup = s.startup := by
  unfold State.cmdSetAccessOrder State.judged; dsimp only; (repeat' split) <;> simp
@[simp] theorem State.cmdSetAccessOrder_publishAtOnce (s : State) (a b c : Word) : (s.cmdSetAccessOrder a b c).publishAtOnce = s.publishAtOnce := by
  unfold State.cmdSetAccessOrder State.judged; dsimp only; (repeat' split) <;> simp
@[simp] theorem State.cmdSetAccessOrder_autoOrder (s : State) (a b c : Word) : (s.cmdSetAccessOrder a b c).autoOrder = s.autoOrder := by
  unfold State.cmdSetAccessOrder State.judged; dsimp only; (repeat' split) <;> simp
@[simp] theorem State.cmdSetAccessOrder_pending (s : State) (a b c : Word) : (s.cmdSetAccessOrder a b c).pending = s.pending := by
  unfold State.cmdSetAccessOrder State.judged; dsimp only; (repeat' split) <;> simp
@[simp] theorem State.cmdSetAccessOrder_bench_assembly (s : State) (a b c : Word) : (s.cmdSetAccessOrder a b c).bench.assembly = s.bench.assembly := by
  unfold State.cmdSetAccessOrder State.judged; dsimp only; (repeat' split) <;> simp
@[simp] theorem State.cmdSetAccessOrder_bench_returnQueue (s : State) (a b c : Word) : (s.cmdSetAccessOrder a b c).bench.returnQueue = s.bench.returnQueue := by
  unfold State.cmdSetAccessOrder State.judged; dsimp only; (repeat' split) <;> simp
@[simp] theorem State.cmdSetAccessOrder_bench_window (s : State) (a b c : Word) : (s.cmdSetAccessOrder a b c).bench.window = s.bench.window := by
  unfold State.cmdSetAccessOrder State.judged; dsimp only; (repeat' split) <;> simp
@[simp] theorem State.cmdSetAccessOrder_bench_stream (s : State) (a b c : Word) : (s.cmdSetAccessOrder a b c).bench.stream = s.bench.stream := by
  unfold State.cmdSetAccessOrder State.judged; dsimp only; (repeat' split) <;> simp
@[simp] theorem State.cmdSetAccessOrder_bench_enables (s : State) (a b c : Word) : (s.cmdSetAccessOrder a b c).bench.enables = s.bench.enables := by
  unfold State.cmdSetAccessOrder State.judged; dsimp only; (repeat' split) <;> simp
@[simp] theorem State.cmdSetAccessOrder_bench_selected (s : State) (a b c : Word) : (s.cmdSetAccessOrder a b c).bench.selected = s.bench.selected := by
  unfold State.cmdSetAccessOrder State.judged; dsimp only; (repeat' split) <;> simp
@[simp] theorem State.cmdSetAccessOrder_bench_out (s : State) (a b c : Word) : (s.cmdSetAccessOrder a b c).bench.out = s.bench.out := by
  unfold State.cmdSetAccessOrder State.judged; dsimp only; (repeat' split) <;> simp

/-! ### cmdWriteMap -/

@[simp] theorem State.cmdWriteMap_map (s : State) : (s.cmdWriteMap).map = s.map := by
  unfold State.cmdWriteMap State.judgedAccess State.judged; dsimp only; (repeat' split) <;> simp
@[simp] theorem State.cmdWriteMap_profiles (s : State) : (s.cmdWriteMap).profiles = s.profiles := by
  unfold State.cmdWriteMap State.judgedAccess State.judged; dsimp only; (repeat' split) <;> simp
@[simp] theorem State.cmdWriteMap_publishing (s : State) : (s.cmdWriteMap).publishing = s.publishing := by
  unfold State.cmdWriteMap State.judgedAccess State.judged; dsimp only; (repeat' split) <;> simp
@[simp] theorem State.cmdWriteMap_settings (s : State) : (s.cmdWriteMap).settings = s.settings := by
  unfold State.cmdWriteMap State.judgedAccess State.judged; dsimp only; (repeat' split) <;> simp
@[simp] theorem State.cmdWriteMap_sweep (s : State) : (s.cmdWriteMap).sweep = s.sweep := by
  unfold State.cmdWriteMap State.judgedAccess State.judged; dsimp only; (repeat' split) <;> simp
@[simp] theorem State.cmdWriteMap_capture (s : State) : (s.cmdWriteMap).capture = s.capture := by
  unfold State.cmdWriteMap State.judgedAccess State.judged; dsimp only; (repeat' split) <;> simp
@[simp] theorem State.cmdWriteMap_index (s : State) : (s.cmdWriteMap).index = s.index := by
  unfold State.cmdWriteMap State.judgedAccess State.judged; dsimp only; (repeat' split) <;> simp
@[simp] theorem State.cmdWriteMap_held (s : State) : (s.cmdWriteMap).held = s.held := by
  unfold State.cmdWriteMap State.judgedAccess State.judged; dsimp only; (repeat' split) <;> simp
@[simp] theorem State.cmdWriteMap_autoRequests (s : State) : (s.cmdWriteMap).autoRequests = s.autoRequests := by
  unfold State.cmdWriteMap State.judgedAccess State.judged; dsimp only; (repeat' split) <;> simp
@[simp] theorem State.cmdWriteMap_runs (s : State) : (s.cmdWriteMap).runs = s.runs := by
  unfold State.cmdWriteMap State.judgedAccess State.judged; dsimp only; (repeat' split) <;> simp
@[simp] theorem State.cmdWriteMap_ff (s : State) : (s.cmdWriteMap).ff = s.ff := by
  unfold State.cmdWriteMap State.judgedAccess State.judged; dsimp only; (repeat' split) <;> simp
@[simp] theorem State.cmdWriteMap_exclusions (s : State) : (s.cmdWriteMap).exclusions = s.exclusions := by
  unfold State.cmdWriteMap State.judgedAccess State.judged; dsimp only; (repeat' split) <;> simp
@[simp] theorem State.cmdWriteMap_perms (s : State) : (s.cmdWriteMap).perms = s.perms := by
  unfold State.cmdWriteMap State.judgedAccess State.judged; dsimp only; (repeat' split) <;> simp
@[simp] theorem State.cmdWriteMap_startup (s : State) : (s.cmdWriteMap).startup = s.startup := by
  unfold State.cmdWriteMap State.judgedAccess State.judged; dsimp only; (repeat' split) <;> simp
@[simp] theorem State.cmdWriteMap_publishAtOnce (s : State) : (s.cmdWriteMap).publishAtOnce = s.publishAtOnce := by
  unfold State.cmdWriteMap State.judgedAccess State.judged; dsimp only; (repeat' split) <;> simp
@[simp] theorem State.cmdWriteMap_autoOrder (s : State) : (s.cmdWriteMap).autoOrder = s.autoOrder := by
  unfold State.cmdWriteMap State.judgedAccess State.judged; dsimp only; (repeat' split) <;> simp
@[simp] theorem State.cmdWriteMap_pending (s : State) : (s.cmdWriteMap).pending = s.pending := by
  unfold State.cmdWriteMap State.judgedAccess State.judged; dsimp only; (repeat' split) <;> simp
@[simp] theorem State.cmdWriteMap_bench_returnQueue (s : State) : (s.cmdWriteMap).bench.returnQueue = s.bench.returnQueue := by
  unfold State.cmdWriteMap State.judgedAccess State.judged; dsimp only; (repeat' split) <;> simp
@[simp] theorem State.cmdWriteMap_bench_window (s : State) : (s.cmdWriteMap).bench.window = s.bench.window := by
  unfold State.cmdWriteMap State.judgedAccess State.judged; dsimp only; (repeat' split) <;> simp
@[simp] theorem State.cmdWriteMap_bench_order (s : State) : (s.cmdWriteMap).bench.order = s.bench.order := by
  unfold State.cmdWriteMap State.judgedAccess State.judged; dsimp only; (repeat' split) <;> simp
@[simp] theorem State.cmdWriteMap_bench_stream (s : State) : (s.cmdWriteMap).bench.stream = s.bench.stream := by
  unfold State.cmdWriteMap State.judgedAccess State.judged; dsimp only; (repeat' split) <;> simp
@[simp] theorem State.cmdWriteMap_bench_enables (s : State) : (s.cmdWriteMap).bench.enables = s.bench.enables := by
  unfold State.cmdWriteMap State.judgedAccess State.judged; dsimp only; (repeat' split) <;> simp
@[simp] theorem State.cmdWriteMap_bench_selected (s : State) : (s.cmdWriteMap).bench.selected = s.bench.selected := by
  unfold State.cmdWriteMap State.judgedAccess State.judged; dsimp only; (repeat' split) <;> simp
@[simp] theorem State.cmdWriteMap_bench_out (s : State) : (s.cmdWriteMap).bench.out = s.bench.out := by
  unfold State.cmdWriteMap State.judgedAccess State.judged; dsimp only; (repeat' split) <;> simp

/-! ### cmdWriteMapContinue -/

@[simp] theorem State.cmdWriteMapContinue_map (s : State) : (s.cmdWriteMapContinue).map = s.map := by
  unfold State.cmdWriteMapContinue State.judgedAccess State.judged; dsimp only; (repeat' split) <;> simp
@[simp] theorem State.cmdWriteMapContinue_profiles (s : State) : (s.cmdWriteMapContinue).profiles = s.profiles := by
  unfold State.cmdWriteMapContinue State.judgedAccess State.judged; dsimp only; (repeat' split) <;> simp
@[simp] theorem State.cmdWriteMapContinue_publishing (s : State) : (s.cmdWriteMapContinue).publishing = s.publishing := by
  unfold State.cmdWriteMapContinue State.judgedAccess State.judged; dsimp only; (repeat' split) <;> simp
@[simp] theorem State.cmdWriteMapContinue_settings (s : State) : (s.cmdWriteMapContinue).settings = s.settings := by
  unfold State.cmdWriteMapContinue State.judgedAccess State.judged; dsimp only; (repeat' split) <;> simp
@[simp] theorem State.cmdWriteMapContinue_sweep (s : State) : (s.cmdWriteMapContinue).sweep = s.sweep := by
  unfold State.cmdWriteMapContinue State.judgedAccess State.judged; dsimp only; (repeat' split) <;> simp
@[simp] theorem State.cmdWriteMapContinue_capture (s : State) : (s.cmdWriteMapContinue).capture = s.capture := by
  unfold State.cmdWriteMapContinue State.judgedAccess State.judged; dsimp only; (repeat' split) <;> simp
@[simp] theorem State.cmdWriteMapContinue_index (s : State) : (s.cmdWriteMapContinue).index = s.index := by
  unfold State.cmdWriteMapContinue State.judgedAccess State.judged; dsimp only; (repeat' split) <;> simp
@[simp] theorem State.cmdWriteMapContinue_held (s : State) : (s.cmdWriteMapContinue).held = s.held := by
  unfold State.cmdWriteMapContinue State.judgedAccess State.judged; dsimp only; (repeat' split) <;> simp
@[simp] theorem State.cmdWriteMapContinue_autoRequests (s : State) : (s.cmdWriteMapContinue).autoRequests = s.autoRequests := by
  unfold State.cmdWriteMapContinue State.judgedAccess State.judged; dsimp only; (repeat' split) <;> simp
@[simp] theorem State.cmdWriteMapContinue_runs (s : State) : (s.cmdWriteMapContinue).runs = s.runs := by
  unfold State.cmdWriteMapContinue State.judgedAccess State.judged; dsimp only; (repeat' split) <;> simp
@[simp] theorem State.cmdWriteMapContinue_ff (s : State) : (s.cmdWriteMapContinue).ff = s.ff := by
  unfold State.cmdWriteMapContinue State.judgedAccess State.judged; dsimp only; (repeat' split) <;> simp
@[simp] theorem State.cmdWriteMapContinue_exclusions (s : State) : (s.cmdWriteMapContinue).exclusions = s.exclusions := by
  unfold State.cmdWriteMapContinue State.judgedAccess State.judged; dsimp only; (repeat' split) <;> simp
@[simp] theorem State.cmdWriteMapContinue_perms (s : State) : (s.cmdWriteMapContinue).perms = s.perms := by
  unfold State.cmdWriteMapContinue State.judgedAccess State.judged; dsimp only; (repeat' split) <;> simp
@[simp] theorem State.cmdWriteMapContinue_startup (s : State) : (s.cmdWriteMapContinue).startup = s.startup := by
  unfold State.cmdWriteMapContinue State.judgedAccess State.judged; dsimp only; (repeat' split) <;> simp
@[simp] theorem State.cmdWriteMapContinue_publishAtOnce (s : State) : (s.cmdWriteMapContinue).publishAtOnce = s.publishAtOnce := by
  unfold State.cmdWriteMapContinue State.judgedAccess State.judged; dsimp only; (repeat' split) <;> simp
@[simp] theorem State.cmdWriteMapContinue_autoOrder (s : State) : (s.cmdWriteMapContinue).autoOrder = s.autoOrder := by
  unfold State.cmdWriteMapContinue State.judgedAccess State.judged; dsimp only; (repeat' split) <;> simp
@[simp] theorem State.cmdWriteMapContinue_pending (s : State) : (s.cmdWriteMapContinue).pending = s.pending := by
  unfold State.cmdWriteMapContinue State.judgedAccess State.judged; dsimp only; (repeat' split) <;> simp
@[simp] theorem State.cmdWriteMapContinue_bench_returnQueue (s : State) : (s.cmdWriteMapContinue).bench.returnQueue = s.bench.returnQueue := by
  unfold State.cmdWriteMapContinue State.judgedAccess State.judged; dsimp only; (repeat' split) <;> simp
@[simp] theorem State.cmdWriteMapContinue_bench_window (s : State) : (s.cmdWriteMapContinue).bench.window = s.bench.window := by
  unfold State.cmdWriteMapContinue State.judgedAccess State.judged; dsimp only; (repeat' split) <;> simp
@[simp] theorem State.cmdWriteMapContinue_bench_order (s : State) : (s.cmdWriteMapContinue).bench.order = s.bench.order := by
  unfold State.cmdWriteMapContinue State.judgedAccess State.judged; dsimp only; (repeat' split) <;> simp
@[simp] theorem State.cmdWriteMapContinue_bench_pointer (s : State) : (s.cmdWriteMapContinue).bench.pointer = s.bench.pointer := by
  unfold State.cmdWriteMapContinue State.judgedAccess State.judged; dsimp only; (repeat' split) <;> simp
@[simp] theorem State.cmdWriteMapContinue_bench_stream (s : State) : (s.cmdWriteMapContinue).bench.stream = s.bench.stream := by
  unfold State.cmdWriteMapContinue State.judgedAccess State.judged; dsimp only; (repeat' split) <;> simp
@[simp] theorem State.cmdWriteMapContinue_bench_enables (s : State) : (s.cmdWriteMapContinue).bench.enables = s.bench.enables := by
  unfold State.cmdWriteMapContinue State.judgedAccess State.judged; dsimp only; (repeat' split) <;> simp
@[simp] theorem State.cmdWriteMapContinue_bench_selected (s : State) : (s.cmdWriteMapContinue).bench.selected = s.bench.selected := by
  unfold State.cmdWriteMapContinue State.judgedAccess State.judged; dsimp only; (repeat' split) <;> simp
@[simp] theorem State.cmdWriteMapContinue_bench_out (s : State) : (s.cmdWriteMapContinue).bench.out = s.bench.out := by
  unfold State.cmdWriteMapContinue State.judgedAccess State.judged; dsimp only; (repeat' split) <;> simp

/-! ### placeItem -/

@[simp] theorem State.placeItem_map (s : State) (p : Pointer) : (s.placeItem p).map = s.map := by
  unfold State.placeItem; dsimp only; (repeat' split) <;> simp
@[simp] theorem State.placeItem_profiles (s : State) (p : Pointer) : (s.placeItem p).profiles = s.profiles := by
  unfold State.placeItem; dsimp only; (repeat' split) <;> simp
@[simp] theorem State.placeItem_publishing (s : State) (p : Pointer) : (s.placeItem p).publishing = s.publishing := by
  unfold State.placeItem; dsimp only; (repeat' split) <;> simp
@[simp] theorem State.placeItem_settings (s : State) (p : Pointer) : (s.placeItem p).settings = s.settings := by
  unfold State.placeItem; dsimp only; (repeat' split) <;> simp
@[simp] theorem State.placeItem_sweep (s : State) (p : Pointer) : (s.placeItem p).sweep = s.sweep := by
  unfold State.placeItem; dsimp only; (repeat' split) <;> simp
@[simp] theorem State.placeItem_capture (s : State) (p : Pointer) : (s.placeItem p).capture = s.capture := by
  unfold State.placeItem; dsimp only; (repeat' split) <;> simp
@[simp] theorem State.placeItem_index (s : State) (p : Pointer) : (s.placeItem p).index = s.index := by
  unfold State.placeItem; dsimp only; (repeat' split) <;> simp
@[simp] theorem State.placeItem_held (s : State) (p : Pointer) : (s.placeItem p).held = s.held := by
  unfold State.placeItem; dsimp only; (repeat' split) <;> simp
@[simp] theorem State.placeItem_autoRequests (s : State) (p : Pointer) : (s.placeItem p).autoRequests = s.autoRequests := by
  unfold State.placeItem; dsimp only; (repeat' split) <;> simp
@[simp] theorem State.placeItem_runs (s : State) (p : Pointer) : (s.placeItem p).runs = s.runs := by
  unfold State.placeItem; dsimp only; (repeat' split) <;> simp
@[simp] theorem State.placeItem_ff (s : State) (p : Pointer) : (s.placeItem p).ff = s.ff := by
  unfold State.placeItem; dsimp only; (repeat' split) <;> simp
@[simp] theorem State.placeItem_exclusions (s : State) (p : Pointer) : (s.placeItem p).exclusions = s.exclusions := by
  unfold State.placeItem; dsimp only; (repeat' split) <;> simp
@[simp] theorem State.placeItem_perms (s : State) (p : Pointer) : (s.placeItem p).perms = s.perms := by
  unfold State.placeItem; dsimp only; (repeat' split) <;> simp
@[simp] theorem State.placeItem_startup (s : State) (p : Pointer) : (s.placeItem p).startup = s.startup := by
  unfold State.placeItem; dsimp only; (repeat' split) <;> simp
@[simp] theorem State.placeItem_publishAtOnce (s : State) (p : Pointer) : (s.placeItem p).publishAtOnce = s.publishAtOnce := by
  unfold State.placeItem; dsimp only; (repeat' split) <;> simp
@[simp] theorem State.placeItem_autoOrder (s : State) (p : Pointer) : (s.placeItem p).autoOrder = s.autoOrder := by
  unfold State.placeItem; dsimp only; (repeat' split) <;> simp
@[simp] theorem State.placeItem_pending (s : State) (p : Pointer) : (s.placeItem p).pending = s.pending := by
  unfold State.placeItem; dsimp only; (repeat' split) <;> simp
@[simp] theorem State.placeItem_bench_assembly (s : State) (p : Pointer) : (s.placeItem p).bench.assembly = s.bench.assembly := by
  unfold State.placeItem; dsimp only; (repeat' split) <;> simp
@[simp] theorem State.placeItem_bench_window (s : State) (p : Pointer) : (s.placeItem p).bench.window = s.bench.window := by
  unfold State.placeItem; dsimp only; (repeat' split) <;> simp
@[simp] theorem State.placeItem_bench_order (s : State) (p : Pointer) : (s.placeItem p).bench.order = s.bench.order := by
  unfold State.placeItem; dsimp only; (repeat' split) <;> simp
@[simp] theorem State.placeItem_bench_stream (s : State) (p : Pointer) : (s.placeItem p).bench.stream = s.bench.stream := by
  unfold State.placeItem; dsimp only; (repeat' split) <;> simp
@[simp] theorem State.placeItem_bench_enables (s : State) (p : Pointer) : (s.placeItem p).bench.enables = s.bench.enables := by
  unfold State.placeItem; dsimp only; (repeat' split) <;> simp
@[simp] theorem State.placeItem_bench_selected (s : State) (p : Pointer) : (s.placeItem p).bench.selected = s.bench.selected := by
  unfold State.placeItem; dsimp only; (repeat' split) <;> simp
@[simp] theorem State.placeItem_bench_out (s : State) (p : Pointer) : (s.placeItem p).bench.out = s.bench.out := by
  unfold State.placeItem; dsimp only; (repeat' split) <;> simp

/-! ### cmdReadMapItem -/

@[simp] theorem State.cmdReadMapItem_profiles (s : State) : (s.cmdReadMapItem).profiles = s.profiles := by
  unfold State.cmdReadMapItem State.judgedAccess State.judged; dsimp only; (repeat' split) <;> simp
@[simp] theorem State.cmdReadMapItem_publishing (s : State) : (s.cmdReadMapItem).publishing = s.publishing := by
  unfold State.cmdReadMapItem State.judgedAccess State.judged; dsimp only; (repeat' split) <;> simp
@[simp] theorem State.cmdReadMapItem_settings (s : State) : (s.cmdReadMapItem).settings = s.settings := by
  unfold State.cmdReadMapItem State.judgedAccess State.judged; dsimp only; (repeat' split) <;> simp
@[simp] theorem State.cmdReadMapItem_sweep (s : State) : (s.cmdReadMapItem).sweep = s.sweep := by
  unfold State.cmdReadMapItem State.judgedAccess State.judged; dsimp only; (repeat' split) <;> simp
@[simp] theorem State.cmdReadMapItem_capture (s : State) : (s.cmdReadMapItem).capture = s.capture := by
  unfold State.cmdReadMapItem State.judgedAccess State.judged; dsimp only; (repeat' split) <;> simp
@[simp] theorem State.cmdReadMapItem_index (s : State) : (s.cmdReadMapItem).index = s.index := by
  unfold State.cmdReadMapItem State.judgedAccess State.judged; dsimp only; (repeat' split) <;> simp
@[simp] theorem State.cmdReadMapItem_exclusions (s : State) : (s.cmdReadMapItem).exclusions = s.exclusions := by
  unfold State.cmdReadMapItem State.judgedAccess State.judged; dsimp only; (repeat' split) <;> simp
@[simp] theorem State.cmdReadMapItem_perms (s : State) : (s.cmdReadMapItem).perms = s.perms := by
  unfold State.cmdReadMapItem State.judgedAccess State.judged; dsimp only; (repeat' split) <;> simp
@[simp] theorem State.cmdReadMapItem_startup (s : State) : (s.cmdReadMapItem).startup = s.startup := by
  unfold State.cmdReadMapItem State.judgedAccess State.judged; dsimp only; (repeat' split) <;> simp
@[simp] theorem State.cmdReadMapItem_publishAtOnce (s : State) : (s.cmdReadMapItem).publishAtOnce = s.publishAtOnce := by
  unfold State.cmdReadMapItem State.judgedAccess State.judged; dsimp only; (repeat' split) <;> simp
@[simp] theorem State.cmdReadMapItem_autoOrder (s : State) : (s.cmdReadMapItem).autoOrder = s.autoOrder := by
  unfold State.cmdReadMapItem State.judgedAccess State.judged; dsimp only; (repeat' split) <;> simp
@[simp] theorem State.cmdReadMapItem_pending (s : State) : (s.cmdReadMapItem).pending = s.pending := by
  unfold State.cmdReadMapItem State.judgedAccess State.judged; dsimp only; (repeat' split) <;> simp
@[simp] theorem State.cmdReadMapItem_bench_assembly (s : State) : (s.cmdReadMapItem).bench.assembly = s.bench.assembly := by
  unfold State.cmdReadMapItem State.judgedAccess State.judged; dsimp only; (repeat' split) <;> simp
@[simp] theorem State.cmdReadMapItem_bench_window (s : State) : (s.cmdReadMapItem).bench.window = s.bench.window := by
  unfold State.cmdReadMapItem State.judgedAccess State.judged; dsimp only; (repeat' split) <;> simp
@[simp] theorem State.cmdReadMapItem_bench_order (s : State) : (s.cmdReadMapItem).bench.order = s.bench.order := by
  unfold State.cmdReadMapItem State.judgedAccess State.judged; dsimp only; (repeat' split) <;> simp
@[simp] theorem State.cmdReadMapItem_bench_stream (s : State) : (s.cmdReadMapItem).bench.stream = s.bench.stream := by
  unfold State.cmdReadMapItem State.judgedAccess State.judged; dsimp only; (repeat' split) <;> simp
@[simp] theorem State.cmdReadMapItem_bench_enables (s : State) : (s.cmdReadMapItem).bench.enables = s.bench.enables := by
  unfold State.cmdReadMapItem State.judgedAccess State.judged; dsimp only; (repeat' split) <;> simp
@[simp] theorem State.cmdReadMapItem_bench_selected (s : State) : (s.cmdReadMapItem).bench.selected = s.bench.selected := by
  unfold State.cmdReadMapItem State.judgedAccess State.judged; dsimp only; (repeat' split) <;> simp
@[simp] theorem State.cmdReadMapItem_bench_out (s : State) : (s.cmdReadMapItem).bench.out = s.bench.out := by
  unfold State.cmdReadMapItem State.judgedAccess State.judged; dsimp only; (repeat' split) <;> simp
@[simp] theorem State.cmdReadMapItem_runs_queue (s : State) : (s.cmdReadMapItem).runs.queue = s.runs.queue := by
  unfold State.cmdReadMapItem State.judgedAccess State.judged; dsimp only; (repeat' split) <;> simp
@[simp] theorem State.cmdReadMapItem_runs_results (s : State) : (s.cmdReadMapItem).runs.results = s.runs.results := by
  unfold State.cmdReadMapItem State.judgedAccess State.judged; dsimp only; (repeat' split) <;> simp
@[simp] theorem State.cmdReadMapItem_runs_serial (s : State) : (s.cmdReadMapItem).runs.serial = s.runs.serial := by
  unfold State.cmdReadMapItem State.judgedAccess State.judged; dsimp only; (repeat' split) <;> simp

/-! ### cmdStreamMap -/

@[simp] theorem State.cmdStreamMap_profiles (s : State) (n : Word) : (s.cmdStreamMap n).profiles = s.profiles := by
  unfold State.cmdStreamMap State.judgedAccess State.judged; dsimp only; (repeat' split) <;> simp
@[simp] theorem State.cmdStreamMap_publishing (s : State) (n : Word) : (s.cmdStreamMap n).publishing = s.publishing := by
  unfold State.cmdStreamMap State.judgedAccess State.judged; dsimp only; (repeat' split) <;> simp
@[simp] theorem State.cmdStreamMap_settings (s : State) (n : Word) : (s.cmdStreamMap n).settings = s.settings := by
  unfold State.cmdStreamMap State.judgedAccess State.judged; dsimp only; (repeat' split) <;> simp
@[simp] theorem State.cmdStreamMap_sweep (s : State) (n : Word) : (s.cmdStreamMap n).sweep = s.sweep := by
  unfold State.cmdStreamMap State.judgedAccess State.judged; dsimp only; (repeat' split) <;> simp
@[simp] theorem State.cmdStreamMap_capture (s : State) (n : Word) : (s.cmdStreamMap n).capture = s.capture := by
  unfold State.cmdStreamMap State.judgedAccess State.judged; dsimp only; (repeat' split) <;> simp
@[simp] theorem State.cmdStreamMap_index (s : State) (n : Word) : (s.cmdStreamMap n).index = s.index := by
  unfold State.cmdStreamMap State.judgedAccess State.judged; dsimp only; (repeat' split) <;> simp
@[simp] theorem State.cmdStreamMap_exclusions (s : State) (n : Word) : (s.cmdStreamMap n).exclusions = s.exclusions := by
  unfold State.cmdStreamMap State.judgedAccess State.judged; dsimp only; (repeat' split) <;> simp
@[simp] theorem State.cmdStreamMap_perms (s : State) (n : Word) : (s.cmdStreamMap n).perms = s.perms := by
  unfold State.cmdStreamMap State.judgedAccess State.judged; dsimp only; (repeat' split) <;> simp
@[simp] theorem State.cmdStreamMap_startup (s : State) (n : Word) : (s.cmdStreamMap n).startup = s.startup := by
  unfold State.cmdStreamMap State.judgedAccess State.judged; dsimp only; (repeat' split) <;> simp
@[simp] theorem State.cmdStreamMap_publishAtOnce (s : State) (n : Word) : (s.cmdStreamMap n).publishAtOnce = s.publishAtOnce := by
  unfold State.cmdStreamMap State.judgedAccess State.judged; dsimp only; (repeat' split) <;> simp
@[simp] theorem State.cmdStreamMap_autoOrder (s : State) (n : Word) : (s.cmdStreamMap n).autoOrder = s.autoOrder := by
  unfold State.cmdStreamMap State.judgedAccess State.judged; dsimp only; (repeat' split) <;> simp
@[simp] theorem State.cmdStreamMap_pending (s : State) (n : Word) : (s.cmdStreamMap n).pending = s.pending := by
  unfold State.cmdStreamMap State.judgedAccess State.judged; dsimp only; (repeat' split) <;> simp
@[simp] theorem State.cmdStreamMap_bench_assembly (s : State) (n : Word) : (s.cmdStreamMap n).bench.assembly = s.bench.assembly := by
  unfold State.cmdStreamMap State.judgedAccess State.judged; dsimp only; (repeat' split) <;> simp
@[simp] theorem State.cmdStreamMap_bench_window (s : State) (n : Word) : (s.cmdStreamMap n).bench.window = s.bench.window := by
  unfold State.cmdStreamMap State.judgedAccess State.judged; dsimp only; (repeat' split) <;> simp
@[simp] theorem State.cmdStreamMap_bench_order (s : State) (n : Word) : (s.cmdStreamMap n).bench.order = s.bench.order := by
  unfold State.cmdStreamMap State.judgedAccess State.judged; dsimp only; (repeat' split) <;> simp
@[simp] theorem State.cmdStreamMap_bench_enables (s : State) (n : Word) : (s.cmdStreamMap n).bench.enables = s.bench.enables := by
  unfold State.cmdStreamMap State.judgedAccess State.judged; dsimp only; (repeat' split) <;> simp
@[simp] theorem State.cmdStreamMap_bench_selected (s : State) (n : Word) : (s.cmdStreamMap n).bench.selected = s.bench.selected := by
  unfold State.cmdStreamMap State.judgedAccess State.judged; dsimp only; (repeat' split) <;> simp
@[simp] theorem State.cmdStreamMap_bench_out (s : State) (n : Word) : (s.cmdStreamMap n).bench.out = s.bench.out := by
  unfold State.cmdStreamMap State.judgedAccess State.judged; dsimp only; (repeat' split) <;> simp
@[simp] theorem State.cmdStreamMap_runs_queue (s : State) (n : Word) : (s.cmdStreamMap n).runs.queue = s.runs.queue := by
  unfold State.cmdStreamMap State.judgedAccess State.judged; dsimp only; (repeat' split) <;> simp
@[simp] theorem State.cmdStreamMap_runs_serial (s : State) (n : Word) : (s.cmdStreamMap n).runs.serial = s.runs.serial := by
  unfold State.cmdStreamMap State.judgedAccess State.judged; dsimp only; (repeat' split) <;> simp

/-! ### cmdHaltStream -/

@[simp] theorem State.cmdHaltStream_map (s : State) : (s.cmdHaltStream).map = s.map := by
  unfold State.cmdHaltStream; (repeat' split) <;> simp
@[simp] theorem State.cmdHaltStream_profiles (s : State) : (s.cmdHaltStream).profiles = s.profiles := by
  unfold State.cmdHaltStream; (repeat' split) <;> simp
@[simp] theorem State.cmdHaltStream_publishing (s : State) : (s.cmdHaltStream).publishing = s.publishing := by
  unfold State.cmdHaltStream; (repeat' split) <;> simp
@[simp] theorem State.cmdHaltStream_settings (s : State) : (s.cmdHaltStream).settings = s.settings := by
  unfold State.cmdHaltStream; (repeat' split) <;> simp
@[simp] theorem State.cmdHaltStream_sweep (s : State) : (s.cmdHaltStream).sweep = s.sweep := by
  unfold State.cmdHaltStream; (repeat' split) <;> simp
@[simp] theorem State.cmdHaltStream_capture (s : State) : (s.cmdHaltStream).capture = s.capture := by
  unfold State.cmdHaltStream; (repeat' split) <;> simp
@[simp] theorem State.cmdHaltStream_index (s : State) : (s.cmdHaltStream).index = s.index := by
  unfold State.cmdHaltStream; (repeat' split) <;> simp
@[simp] theorem State.cmdHaltStream_held (s : State) : (s.cmdHaltStream).held = s.held := by
  unfold State.cmdHaltStream; (repeat' split) <;> simp
@[simp] theorem State.cmdHaltStream_autoRequests (s : State) : (s.cmdHaltStream).autoRequests = s.autoRequests := by
  unfold State.cmdHaltStream; (repeat' split) <;> simp
@[simp] theorem State.cmdHaltStream_runs (s : State) : (s.cmdHaltStream).runs = s.runs := by
  unfold State.cmdHaltStream; (repeat' split) <;> simp
@[simp] theorem State.cmdHaltStream_ff (s : State) : (s.cmdHaltStream).ff = s.ff := by
  unfold State.cmdHaltStream; (repeat' split) <;> simp
@[simp] theorem State.cmdHaltStream_exclusions (s : State) : (s.cmdHaltStream).exclusions = s.exclusions := by
  unfold State.cmdHaltStream; (repeat' split) <;> simp
@[simp] theorem State.cmdHaltStream_perms (s : State) : (s.cmdHaltStream).perms = s.perms := by
  unfold State.cmdHaltStream; (repeat' split) <;> simp
@[simp] theorem State.cmdHaltStream_startup (s : State) : (s.cmdHaltStream).startup = s.startup := by
  unfold State.cmdHaltStream; (repeat' split) <;> simp
@[simp] theorem State.cmdHaltStream_publishAtOnce (s : State) : (s.cmdHaltStream).publishAtOnce = s.publishAtOnce := by
  unfold State.cmdHaltStream; (repeat' split) <;> simp
@[simp] theorem State.cmdHaltStream_autoOrder (s : State) : (s.cmdHaltStream).autoOrder = s.autoOrder := by
  unfold State.cmdHaltStream; (repeat' split) <;> simp
@[simp] theorem State.cmdHaltStream_pending (s : State) : (s.cmdHaltStream).pending = s.pending := by
  unfold State.cmdHaltStream; (repeat' split) <;> simp
@[simp] theorem State.cmdHaltStream_bench_assembly (s : State) : (s.cmdHaltStream).bench.assembly = s.bench.assembly := by
  unfold State.cmdHaltStream; (repeat' split) <;> simp
@[simp] theorem State.cmdHaltStream_bench_window (s : State) : (s.cmdHaltStream).bench.window = s.bench.window := by
  unfold State.cmdHaltStream; (repeat' split) <;> simp
@[simp] theorem State.cmdHaltStream_bench_order (s : State) : (s.cmdHaltStream).bench.order = s.bench.order := by
  unfold State.cmdHaltStream; (repeat' split) <;> simp
@[simp] theorem State.cmdHaltStream_bench_pointer (s : State) : (s.cmdHaltStream).bench.pointer = s.bench.pointer := by
  unfold State.cmdHaltStream; (repeat' split) <;> simp
@[simp] theorem State.cmdHaltStream_bench_enables (s : State) : (s.cmdHaltStream).bench.enables = s.bench.enables := by
  unfold State.cmdHaltStream; (repeat' split) <;> simp
@[simp] theorem State.cmdHaltStream_bench_selected (s : State) : (s.cmdHaltStream).bench.selected = s.bench.selected := by
  unfold State.cmdHaltStream; (repeat' split) <;> simp
@[simp] theorem State.cmdHaltStream_bench_out (s : State) : (s.cmdHaltStream).bench.out = s.bench.out := by
  unfold State.cmdHaltStream; (repeat' split) <;> simp

/-! ### cmdPublishNow -/

@[simp] theorem State.cmdPublishNow_map (s : State) (hs : Word) : (s.cmdPublishNow hs).map = s.map := by
  unfold State.cmdPublishNow State.judged; dsimp only; (repeat' split) <;> simp
@[simp] theorem State.cmdPublishNow_publishing (s : State) (hs : Word) : (s.cmdPublishNow hs).publishing = s.publishing := by
  unfold State.cmdPublishNow State.judged; dsimp only; (repeat' split) <;> simp
@[simp] theorem State.cmdPublishNow_settings (s : State) (hs : Word) : (s.cmdPublishNow hs).settings = s.settings := by
  unfold State.cmdPublishNow State.judged; dsimp only; (repeat' split) <;> simp
@[simp] theorem State.cmdPublishNow_sweep (s : State) (hs : Word) : (s.cmdPublishNow hs).sweep = s.sweep := by
  unfold State.cmdPublishNow State.judged; dsimp only; (repeat' split) <;> simp
@[simp] theorem State.cmdPublishNow_capture (s : State) (hs : Word) : (s.cmdPublishNow hs).capture = s.capture := by
  unfold State.cmdPublishNow State.judged; dsimp only; (repeat' split) <;> simp
@[simp] theorem State.cmdPublishNow_index (s : State) (hs : Word) : (s.cmdPublishNow hs).index = s.index := by
  unfold State.cmdPublishNow State.judged; dsimp only; (repeat' split) <;> simp
@[simp] theorem State.cmdPublishNow_held (s : State) (hs : Word) : (s.cmdPublishNow hs).held = s.held := by
  unfold State.cmdPublishNow State.judged; dsimp only; (repeat' split) <;> simp
@[simp] theorem State.cmdPublishNow_autoRequests (s : State) (hs : Word) : (s.cmdPublishNow hs).autoRequests = s.autoRequests := by
  unfold State.cmdPublishNow State.judged; dsimp only; (repeat' split) <;> simp
@[simp] theorem State.cmdPublishNow_runs (s : State) (hs : Word) : (s.cmdPublishNow hs).runs = s.runs := by
  unfold State.cmdPublishNow State.judged; dsimp only; (repeat' split) <;> simp
@[simp] theorem State.cmdPublishNow_ff (s : State) (hs : Word) : (s.cmdPublishNow hs).ff = s.ff := by
  unfold State.cmdPublishNow State.judged; dsimp only; (repeat' split) <;> simp
@[simp] theorem State.cmdPublishNow_exclusions (s : State) (hs : Word) : (s.cmdPublishNow hs).exclusions = s.exclusions := by
  unfold State.cmdPublishNow State.judged; dsimp only; (repeat' split) <;> simp
@[simp] theorem State.cmdPublishNow_perms (s : State) (hs : Word) : (s.cmdPublishNow hs).perms = s.perms := by
  unfold State.cmdPublishNow State.judged; dsimp only; (repeat' split) <;> simp
@[simp] theorem State.cmdPublishNow_startup (s : State) (hs : Word) : (s.cmdPublishNow hs).startup = s.startup := by
  unfold State.cmdPublishNow State.judged; dsimp only; (repeat' split) <;> simp
@[simp] theorem State.cmdPublishNow_publishAtOnce (s : State) (hs : Word) : (s.cmdPublishNow hs).publishAtOnce = s.publishAtOnce := by
  unfold State.cmdPublishNow State.judged; dsimp only; (repeat' split) <;> simp
@[simp] theorem State.cmdPublishNow_autoOrder (s : State) (hs : Word) : (s.cmdPublishNow hs).autoOrder = s.autoOrder := by
  unfold State.cmdPublishNow State.judged; dsimp only; (repeat' split) <;> simp
@[simp] theorem State.cmdPublishNow_pending (s : State) (hs : Word) : (s.cmdPublishNow hs).pending = s.pending := by
  unfold State.cmdPublishNow State.judged; dsimp only; (repeat' split) <;> simp
@[simp] theorem State.cmdPublishNow_bench_assembly (s : State) (hs : Word) : (s.cmdPublishNow hs).bench.assembly = s.bench.assembly := by
  unfold State.cmdPublishNow State.judged; dsimp only; (repeat' split) <;> simp
@[simp] theorem State.cmdPublishNow_bench_returnQueue (s : State) (hs : Word) : (s.cmdPublishNow hs).bench.returnQueue = s.bench.returnQueue := by
  unfold State.cmdPublishNow State.judged; dsimp only; (repeat' split) <;> simp
@[simp] theorem State.cmdPublishNow_bench_window (s : State) (hs : Word) : (s.cmdPublishNow hs).bench.window = s.bench.window := by
  unfold State.cmdPublishNow State.judged; dsimp only; (repeat' split) <;> simp
@[simp] theorem State.cmdPublishNow_bench_order (s : State) (hs : Word) : (s.cmdPublishNow hs).bench.order = s.bench.order := by
  unfold State.cmdPublishNow State.judged; dsimp only; (repeat' split) <;> simp
@[simp] theorem State.cmdPublishNow_bench_pointer (s : State) (hs : Word) : (s.cmdPublishNow hs).bench.pointer = s.bench.pointer := by
  unfold State.cmdPublishNow State.judged; dsimp only; (repeat' split) <;> simp
@[simp] theorem State.cmdPublishNow_bench_stream (s : State) (hs : Word) : (s.cmdPublishNow hs).bench.stream = s.bench.stream := by
  unfold State.cmdPublishNow State.judged; dsimp only; (repeat' split) <;> simp
@[simp] theorem State.cmdPublishNow_bench_enables (s : State) (hs : Word) : (s.cmdPublishNow hs).bench.enables = s.bench.enables := by
  unfold State.cmdPublishNow State.judged; dsimp only; (repeat' split) <;> simp
@[simp] theorem State.cmdPublishNow_bench_selected (s : State) (hs : Word) : (s.cmdPublishNow hs).bench.selected = s.bench.selected := by
  unfold State.cmdPublishNow State.judged; dsimp only; (repeat' split) <;> simp
@[simp] theorem State.cmdPublishNow_bench_out (s : State) (hs : Word) : (s.cmdPublishNow hs).bench.out = s.bench.out := by
  unfold State.cmdPublishNow State.judged; dsimp only; (repeat' split) <;> simp

/-! ### cmdEnqueueRun -/

@[simp] theorem State.cmdEnqueueRun_map (s : State) (w1 w2 w3 w4 w5 w6 w7 : Word) : (s.cmdEnqueueRun w1 w2 w3 w4 w5 w6 w7).map = s.map := by
  unfold State.cmdEnqueueRun State.judged; dsimp only; (repeat' split) <;> simp
@[simp] theorem State.cmdEnqueueRun_profiles (s : State) (w1 w2 w3 w4 w5 w6 w7 : Word) : (s.cmdEnqueueRun w1 w2 w3 w4 w5 w6 w7).profiles = s.profiles := by
  unfold State.cmdEnqueueRun State.judged; dsimp only; (repeat' split) <;> simp
@[simp] theorem State.cmdEnqueueRun_publishing (s : State) (w1 w2 w3 w4 w5 w6 w7 : Word) : (s.cmdEnqueueRun w1 w2 w3 w4 w5 w6 w7).publishing = s.publishing := by
  unfold State.cmdEnqueueRun State.judged; dsimp only; (repeat' split) <;> simp
@[simp] theorem State.cmdEnqueueRun_settings (s : State) (w1 w2 w3 w4 w5 w6 w7 : Word) : (s.cmdEnqueueRun w1 w2 w3 w4 w5 w6 w7).settings = s.settings := by
  unfold State.cmdEnqueueRun State.judged; dsimp only; (repeat' split) <;> simp
@[simp] theorem State.cmdEnqueueRun_sweep (s : State) (w1 w2 w3 w4 w5 w6 w7 : Word) : (s.cmdEnqueueRun w1 w2 w3 w4 w5 w6 w7).sweep = s.sweep := by
  unfold State.cmdEnqueueRun State.judged; dsimp only; (repeat' split) <;> simp
@[simp] theorem State.cmdEnqueueRun_capture (s : State) (w1 w2 w3 w4 w5 w6 w7 : Word) : (s.cmdEnqueueRun w1 w2 w3 w4 w5 w6 w7).capture = s.capture := by
  unfold State.cmdEnqueueRun State.judged; dsimp only; (repeat' split) <;> simp
@[simp] theorem State.cmdEnqueueRun_index (s : State) (w1 w2 w3 w4 w5 w6 w7 : Word) : (s.cmdEnqueueRun w1 w2 w3 w4 w5 w6 w7).index = s.index := by
  unfold State.cmdEnqueueRun State.judged; dsimp only; (repeat' split) <;> simp
@[simp] theorem State.cmdEnqueueRun_held (s : State) (w1 w2 w3 w4 w5 w6 w7 : Word) : (s.cmdEnqueueRun w1 w2 w3 w4 w5 w6 w7).held = s.held := by
  unfold State.cmdEnqueueRun State.judged; dsimp only; (repeat' split) <;> simp
@[simp] theorem State.cmdEnqueueRun_autoRequests (s : State) (w1 w2 w3 w4 w5 w6 w7 : Word) : (s.cmdEnqueueRun w1 w2 w3 w4 w5 w6 w7).autoRequests = s.autoRequests := by
  unfold State.cmdEnqueueRun State.judged; dsimp only; (repeat' split) <;> simp
@[simp] theorem State.cmdEnqueueRun_ff (s : State) (w1 w2 w3 w4 w5 w6 w7 : Word) : (s.cmdEnqueueRun w1 w2 w3 w4 w5 w6 w7).ff = s.ff := by
  unfold State.cmdEnqueueRun State.judged; dsimp only; (repeat' split) <;> simp
@[simp] theorem State.cmdEnqueueRun_exclusions (s : State) (w1 w2 w3 w4 w5 w6 w7 : Word) : (s.cmdEnqueueRun w1 w2 w3 w4 w5 w6 w7).exclusions = s.exclusions := by
  unfold State.cmdEnqueueRun State.judged; dsimp only; (repeat' split) <;> simp
@[simp] theorem State.cmdEnqueueRun_perms (s : State) (w1 w2 w3 w4 w5 w6 w7 : Word) : (s.cmdEnqueueRun w1 w2 w3 w4 w5 w6 w7).perms = s.perms := by
  unfold State.cmdEnqueueRun State.judged; dsimp only; (repeat' split) <;> simp
@[simp] theorem State.cmdEnqueueRun_startup (s : State) (w1 w2 w3 w4 w5 w6 w7 : Word) : (s.cmdEnqueueRun w1 w2 w3 w4 w5 w6 w7).startup = s.startup := by
  unfold State.cmdEnqueueRun State.judged; dsimp only; (repeat' split) <;> simp
@[simp] theorem State.cmdEnqueueRun_publishAtOnce (s : State) (w1 w2 w3 w4 w5 w6 w7 : Word) : (s.cmdEnqueueRun w1 w2 w3 w4 w5 w6 w7).publishAtOnce = s.publishAtOnce := by
  unfold State.cmdEnqueueRun State.judged; dsimp only; (repeat' split) <;> simp
@[simp] theorem State.cmdEnqueueRun_autoOrder (s : State) (w1 w2 w3 w4 w5 w6 w7 : Word) : (s.cmdEnqueueRun w1 w2 w3 w4 w5 w6 w7).autoOrder = s.autoOrder := by
  unfold State.cmdEnqueueRun State.judged; dsimp only; (repeat' split) <;> simp
@[simp] theorem State.cmdEnqueueRun_pending (s : State) (w1 w2 w3 w4 w5 w6 w7 : Word) : (s.cmdEnqueueRun w1 w2 w3 w4 w5 w6 w7).pending = s.pending := by
  unfold State.cmdEnqueueRun State.judged; dsimp only; (repeat' split) <;> simp
@[simp] theorem State.cmdEnqueueRun_bench_assembly (s : State) (w1 w2 w3 w4 w5 w6 w7 : Word) : (s.cmdEnqueueRun w1 w2 w3 w4 w5 w6 w7).bench.assembly = s.bench.assembly := by
  unfold State.cmdEnqueueRun State.judged; dsimp only; (repeat' split) <;> simp
@[simp] theorem State.cmdEnqueueRun_bench_returnQueue (s : State) (w1 w2 w3 w4 w5 w6 w7 : Word) : (s.cmdEnqueueRun w1 w2 w3 w4 w5 w6 w7).bench.returnQueue = s.bench.returnQueue := by
  unfold State.cmdEnqueueRun State.judged; dsimp only; (repeat' split) <;> simp
@[simp] theorem State.cmdEnqueueRun_bench_window (s : State) (w1 w2 w3 w4 w5 w6 w7 : Word) : (s.cmdEnqueueRun w1 w2 w3 w4 w5 w6 w7).bench.window = s.bench.window := by
  unfold State.cmdEnqueueRun State.judged; dsimp only; (repeat' split) <;> simp
@[simp] theorem State.cmdEnqueueRun_bench_order (s : State) (w1 w2 w3 w4 w5 w6 w7 : Word) : (s.cmdEnqueueRun w1 w2 w3 w4 w5 w6 w7).bench.order = s.bench.order := by
  unfold State.cmdEnqueueRun State.judged; dsimp only; (repeat' split) <;> simp
@[simp] theorem State.cmdEnqueueRun_bench_pointer (s : State) (w1 w2 w3 w4 w5 w6 w7 : Word) : (s.cmdEnqueueRun w1 w2 w3 w4 w5 w6 w7).bench.pointer = s.bench.pointer := by
  unfold State.cmdEnqueueRun State.judged; dsimp only; (repeat' split) <;> simp
@[simp] theorem State.cmdEnqueueRun_bench_stream (s : State) (w1 w2 w3 w4 w5 w6 w7 : Word) : (s.cmdEnqueueRun w1 w2 w3 w4 w5 w6 w7).bench.stream = s.bench.stream := by
  unfold State.cmdEnqueueRun State.judged; dsimp only; (repeat' split) <;> simp
@[simp] theorem State.cmdEnqueueRun_bench_enables (s : State) (w1 w2 w3 w4 w5 w6 w7 : Word) : (s.cmdEnqueueRun w1 w2 w3 w4 w5 w6 w7).bench.enables = s.bench.enables := by
  unfold State.cmdEnqueueRun State.judged; dsimp only; (repeat' split) <;> simp
@[simp] theorem State.cmdEnqueueRun_bench_selected (s : State) (w1 w2 w3 w4 w5 w6 w7 : Word) : (s.cmdEnqueueRun w1 w2 w3 w4 w5 w6 w7).bench.selected = s.bench.selected := by
  unfold State.cmdEnqueueRun State.judged; dsimp only; (repeat' split) <;> simp
@[simp] theorem State.cmdEnqueueRun_bench_out (s : State) (w1 w2 w3 w4 w5 w6 w7 : Word) : (s.cmdEnqueueRun w1 w2 w3 w4 w5 w6 w7).bench.out = s.bench.out := by
  unfold State.cmdEnqueueRun State.judged; dsimp only; (repeat' split) <;> simp
@[simp] theorem State.cmdEnqueueRun_runs_active (s : State) (w1 w2 w3 w4 w5 w6 w7 : Word) : (s.cmdEnqueueRun w1 w2 w3 w4 w5 w6 w7).runs.active = s.runs.active := by
  unfold State.cmdEnqueueRun State.judged; dsimp only; (repeat' split) <;> simp
@[simp] theorem State.cmdEnqueueRun_runs_results (s : State) (w1 w2 w3 w4 w5 w6 w7 : Word) : (s.cmdEnqueueRun w1 w2 w3 w4 w5 w6 w7).runs.results = s.runs.results := by
  unfold State.cmdEnqueueRun State.judged; dsimp only; (repeat' split) <;> simp
@[simp] theorem State.cmdEnqueueRun_runs_serial (s : State) (w1 w2 w3 w4 w5 w6 w7 : Word) : (s.cmdEnqueueRun w1 w2 w3 w4 w5 w6 w7).runs.serial = s.runs.serial := by
  unfold State.cmdEnqueueRun State.judged; dsimp only; (repeat' split) <;> simp

/-! ### cmdCancelQueued -/

@[simp] theorem State.cmdCancelQueued_map (s : State) (tag : Word) : (s.cmdCancelQueued tag).map = s.map := by
  unfold State.cmdCancelQueued State.judged; dsimp only; (repeat' split) <;> simp
@[simp] theorem State.cmdCancelQueued_profiles (s : State) (tag : Word) : (s.cmdCancelQueued tag).profiles = s.profiles := by
  unfold State.cmdCancelQueued State.judged; dsimp only; (repeat' split) <;> simp
@[simp] theorem State.cmdCancelQueued_publishing (s : State) (tag : Word) : (s.cmdCancelQueued tag).publishing = s.publishing := by
  unfold State.cmdCancelQueued State.judged; dsimp only; (repeat' split) <;> simp
@[simp] theorem State.cmdCancelQueued_settings (s : State) (tag : Word) : (s.cmdCancelQueued tag).settings = s.settings := by
  unfold State.cmdCancelQueued State.judged; dsimp only; (repeat' split) <;> simp
@[simp] theorem State.cmdCancelQueued_sweep (s : State) (tag : Word) : (s.cmdCancelQueued tag).sweep = s.sweep := by
  unfold State.cmdCancelQueued State.judged; dsimp only; (repeat' split) <;> simp
@[simp] theorem State.cmdCancelQueued_capture (s : State) (tag : Word) : (s.cmdCancelQueued tag).capture = s.capture := by
  unfold State.cmdCancelQueued State.judged; dsimp only; (repeat' split) <;> simp
@[simp] theorem State.cmdCancelQueued_index (s : State) (tag : Word) : (s.cmdCancelQueued tag).index = s.index := by
  unfold State.cmdCancelQueued State.judged; dsimp only; (repeat' split) <;> simp
@[simp] theorem State.cmdCancelQueued_held (s : State) (tag : Word) : (s.cmdCancelQueued tag).held = s.held := by
  unfold State.cmdCancelQueued State.judged; dsimp only; (repeat' split) <;> simp
@[simp] theorem State.cmdCancelQueued_autoRequests (s : State) (tag : Word) : (s.cmdCancelQueued tag).autoRequests = s.autoRequests := by
  unfold State.cmdCancelQueued State.judged; dsimp only; (repeat' split) <;> simp
@[simp] theorem State.cmdCancelQueued_ff (s : State) (tag : Word) : (s.cmdCancelQueued tag).ff = s.ff := by
  unfold State.cmdCancelQueued State.judged; dsimp only; (repeat' split) <;> simp
@[simp] theorem State.cmdCancelQueued_exclusions (s : State) (tag : Word) : (s.cmdCancelQueued tag).exclusions = s.exclusions := by
  unfold State.cmdCancelQueued State.judged; dsimp only; (repeat' split) <;> simp
@[simp] theorem State.cmdCancelQueued_perms (s : State) (tag : Word) : (s.cmdCancelQueued tag).perms = s.perms := by
  unfold State.cmdCancelQueued State.judged; dsimp only; (repeat' split) <;> simp
@[simp] theorem State.cmdCancelQueued_startup (s : State) (tag : Word) : (s.cmdCancelQueued tag).startup = s.startup := by
  unfold State.cmdCancelQueued State.judged; dsimp only; (repeat' split) <;> simp
@[simp] theorem State.cmdCancelQueued_publishAtOnce (s : State) (tag : Word) : (s.cmdCancelQueued tag).publishAtOnce = s.publishAtOnce := by
  unfold State.cmdCancelQueued State.judged; dsimp only; (repeat' split) <;> simp
@[simp] theorem State.cmdCancelQueued_autoOrder (s : State) (tag : Word) : (s.cmdCancelQueued tag).autoOrder = s.autoOrder := by
  unfold State.cmdCancelQueued State.judged; dsimp only; (repeat' split) <;> simp
@[simp] theorem State.cmdCancelQueued_pending (s : State) (tag : Word) : (s.cmdCancelQueued tag).pending = s.pending := by
  unfold State.cmdCancelQueued State.judged; dsimp only; (repeat' split) <;> simp
@[simp] theorem State.cmdCancelQueued_bench_assembly (s : State) (tag : Word) : (s.cmdCancelQueued tag).bench.assembly = s.bench.assembly := by
  unfold State.cmdCancelQueued State.judged; dsimp only; (repeat' split) <;> simp
@[simp] theorem State.cmdCancelQueued_bench_returnQueue (s : State) (tag : Word) : (s.cmdCancelQueued tag).bench.returnQueue = s.bench.returnQueue := by
  unfold State.cmdCancelQueued State.judged; dsimp only; (repeat' split) <;> simp
@[simp] theorem State.cmdCancelQueued_bench_window (s : State) (tag : Word) : (s.cmdCancelQueued tag).bench.window = s.bench.window := by
  unfold State.cmdCancelQueued State.judged; dsimp only; (repeat' split) <;> simp
@[simp] theorem State.cmdCancelQueued_bench_order (s : State) (tag : Word) : (s.cmdCancelQueued tag).bench.order = s.bench.order := by
  unfold State.cmdCancelQueued State.judged; dsimp only; (repeat' split) <;> simp
@[simp] theorem State.cmdCancelQueued_bench_pointer (s : State) (tag : Word) : (s.cmdCancelQueued tag).bench.pointer = s.bench.pointer := by
  unfold State.cmdCancelQueued State.judged; dsimp only; (repeat' split) <;> simp
@[simp] theorem State.cmdCancelQueued_bench_stream (s : State) (tag : Word) : (s.cmdCancelQueued tag).bench.stream = s.bench.stream := by
  unfold State.cmdCancelQueued State.judged; dsimp only; (repeat' split) <;> simp
@[simp] theorem State.cmdCancelQueued_bench_enables (s : State) (tag : Word) : (s.cmdCancelQueued tag).bench.enables = s.bench.enables := by
  unfold State.cmdCancelQueued State.judged; dsimp only; (repeat' split) <;> simp
@[simp] theorem State.cmdCancelQueued_bench_selected (s : State) (tag : Word) : (s.cmdCancelQueued tag).bench.selected = s.bench.selected := by
  unfold State.cmdCancelQueued State.judged; dsimp only; (repeat' split) <;> simp
@[simp] theorem State.cmdCancelQueued_bench_out (s : State) (tag : Word) : (s.cmdCancelQueued tag).bench.out = s.bench.out := by
  unfold State.cmdCancelQueued State.judged; dsimp only; (repeat' split) <;> simp
@[simp] theorem State.cmdCancelQueued_runs_active (s : State) (tag : Word) : (s.cmdCancelQueued tag).runs.active = s.runs.active := by
  unfold State.cmdCancelQueued State.judged; dsimp only; (repeat' split) <;> simp
@[simp] theorem State.cmdCancelQueued_runs_results (s : State) (tag : Word) : (s.cmdCancelQueued tag).runs.results = s.runs.results := by
  unfold State.cmdCancelQueued State.judged; dsimp only; (repeat' split) <;> simp
@[simp] theorem State.cmdCancelQueued_runs_serial (s : State) (tag : Word) : (s.cmdCancelQueued tag).runs.serial = s.runs.serial := by
  unfold State.cmdCancelQueued State.judged; dsimp only; (repeat' split) <;> simp

/-! ### cmdHaltRun -/

@[simp] theorem State.cmdHaltRun_settings (s : State) : (s.cmdHaltRun).settings = s.settings := by
  unfold State.cmdHaltRun State.judged; dsimp only; (repeat' split) <;> simp
@[simp] theorem State.cmdHaltRun_sweep (s : State) : (s.cmdHaltRun).sweep = s.sweep := by
  unfold State.cmdHaltRun State.judged; dsimp only; (repeat' split) <;> simp
@[simp] theorem State.cmdHaltRun_capture (s : State) : (s.cmdHaltRun).capture = s.capture := by
  unfold State.cmdHaltRun State.judged; dsimp only; (repeat' split) <;> simp
@[simp] theorem State.cmdHaltRun_held (s : State) : (s.cmdHaltRun).held = s.held := by
  unfold State.cmdHaltRun State.judged; dsimp only; (repeat' split) <;> simp
@[simp] theorem State.cmdHaltRun_autoRequests (s : State) : (s.cmdHaltRun).autoRequests = s.autoRequests := by
  unfold State.cmdHaltRun State.judged; dsimp only; (repeat' split) <;> simp
@[simp] theorem State.cmdHaltRun_ff (s : State) : (s.cmdHaltRun).ff = s.ff := by
  unfold State.cmdHaltRun State.judged; dsimp only; (repeat' split) <;> simp
@[simp] theorem State.cmdHaltRun_exclusions (s : State) : (s.cmdHaltRun).exclusions = s.exclusions := by
  unfold State.cmdHaltRun State.judged; dsimp only; (repeat' split) <;> simp
@[simp] theorem State.cmdHaltRun_perms (s : State) : (s.cmdHaltRun).perms = s.perms := by
  unfold State.cmdHaltRun State.judged; dsimp only; (repeat' split) <;> simp
@[simp] theorem State.cmdHaltRun_startup (s : State) : (s.cmdHaltRun).startup = s.startup := by
  unfold State.cmdHaltRun State.judged; dsimp only; (repeat' split) <;> simp
@[simp] theorem State.cmdHaltRun_publishAtOnce (s : State) : (s.cmdHaltRun).publishAtOnce = s.publishAtOnce := by
  unfold State.cmdHaltRun State.judged; dsimp only; (repeat' split) <;> simp
@[simp] theorem State.cmdHaltRun_autoOrder (s : State) : (s.cmdHaltRun).autoOrder = s.autoOrder := by
  unfold State.cmdHaltRun State.judged; dsimp only; (repeat' split) <;> simp
@[simp] theorem State.cmdHaltRun_pending (s : State) : (s.cmdHaltRun).pending = s.pending := by
  unfold State.cmdHaltRun State.judged; dsimp only; (repeat' split) <;> simp
@[simp] theorem State.cmdHaltRun_bench_assembly (s : State) : (s.cmdHaltRun).bench.assembly = s.bench.assembly := by
  unfold State.cmdHaltRun State.judged; dsimp only; (repeat' split) <;> simp
@[simp] theorem State.cmdHaltRun_bench_returnQueue (s : State) : (s.cmdHaltRun).bench.returnQueue = s.bench.returnQueue := by
  unfold State.cmdHaltRun State.judged; dsimp only; (repeat' split) <;> simp
@[simp] theorem State.cmdHaltRun_bench_window (s : State) : (s.cmdHaltRun).bench.window = s.bench.window := by
  unfold State.cmdHaltRun State.judged; dsimp only; (repeat' split) <;> simp
@[simp] theorem State.cmdHaltRun_bench_order (s : State) : (s.cmdHaltRun).bench.order = s.bench.order := by
  unfold State.cmdHaltRun State.judged; dsimp only; (repeat' split) <;> simp
@[simp] theorem State.cmdHaltRun_bench_pointer (s : State) : (s.cmdHaltRun).bench.pointer = s.bench.pointer := by
  unfold State.cmdHaltRun State.judged; dsimp only; (repeat' split) <;> simp
@[simp] theorem State.cmdHaltRun_bench_stream (s : State) : (s.cmdHaltRun).bench.stream = s.bench.stream := by
  unfold State.cmdHaltRun State.judged; dsimp only; (repeat' split) <;> simp
@[simp] theorem State.cmdHaltRun_bench_enables (s : State) : (s.cmdHaltRun).bench.enables = s.bench.enables := by
  unfold State.cmdHaltRun State.judged; dsimp only; (repeat' split) <;> simp
@[simp] theorem State.cmdHaltRun_bench_selected (s : State) : (s.cmdHaltRun).bench.selected = s.bench.selected := by
  unfold State.cmdHaltRun State.judged; dsimp only; (repeat' split) <;> simp
@[simp] theorem State.cmdHaltRun_bench_out (s : State) : (s.cmdHaltRun).bench.out = s.bench.out := by
  unfold State.cmdHaltRun State.judged; dsimp only; (repeat' split) <;> simp
@[simp] theorem State.cmdHaltRun_runs_queue (s : State) : (s.cmdHaltRun).runs.queue = s.runs.queue := by
  unfold State.cmdHaltRun State.judged; dsimp only; (repeat' split) <;> simp
@[simp] theorem State.cmdHaltRun_runs_serial (s : State) : (s.cmdHaltRun).runs.serial = s.runs.serial := by
  unfold State.cmdHaltRun State.judged; dsimp only; (repeat' split) <;> simp

/-! ### cmdTakeResult -/

@[simp] theorem State.cmdTakeResult_map (s : State) : (s.cmdTakeResult).map = s.map := by
  unfold State.cmdTakeResult State.judged; dsimp only; (repeat' split) <;> simp
@[simp] theorem State.cmdTakeResult_profiles (s : State) : (s.cmdTakeResult).profiles = s.profiles := by
  unfold State.cmdTakeResult State.judged; dsimp only; (repeat' split) <;> simp
@[simp] theorem State.cmdTakeResult_publishing (s : State) : (s.cmdTakeResult).publishing = s.publishing := by
  unfold State.cmdTakeResult State.judged; dsimp only; (repeat' split) <;> simp
@[simp] theorem State.cmdTakeResult_settings (s : State) : (s.cmdTakeResult).settings = s.settings := by
  unfold State.cmdTakeResult State.judged; dsimp only; (repeat' split) <;> simp
@[simp] theorem State.cmdTakeResult_sweep (s : State) : (s.cmdTakeResult).sweep = s.sweep := by
  unfold State.cmdTakeResult State.judged; dsimp only; (repeat' split) <;> simp
@[simp] theorem State.cmdTakeResult_capture (s : State) : (s.cmdTakeResult).capture = s.capture := by
  unfold State.cmdTakeResult State.judged; dsimp only; (repeat' split) <;> simp
@[simp] theorem State.cmdTakeResult_index (s : State) : (s.cmdTakeResult).index = s.index := by
  unfold State.cmdTakeResult State.judged; dsimp only; (repeat' split) <;> simp
@[simp] theorem State.cmdTakeResult_held (s : State) : (s.cmdTakeResult).held = s.held := by
  unfold State.cmdTakeResult State.judged; dsimp only; (repeat' split) <;> simp
@[simp] theorem State.cmdTakeResult_autoRequests (s : State) : (s.cmdTakeResult).autoRequests = s.autoRequests := by
  unfold State.cmdTakeResult State.judged; dsimp only; (repeat' split) <;> simp
@[simp] theorem State.cmdTakeResult_ff (s : State) : (s.cmdTakeResult).ff = s.ff := by
  unfold State.cmdTakeResult State.judged; dsimp only; (repeat' split) <;> simp
@[simp] theorem State.cmdTakeResult_exclusions (s : State) : (s.cmdTakeResult).exclusions = s.exclusions := by
  unfold State.cmdTakeResult State.judged; dsimp only; (repeat' split) <;> simp
@[simp] theorem State.cmdTakeResult_perms (s : State) : (s.cmdTakeResult).perms = s.perms := by
  unfold State.cmdTakeResult State.judged; dsimp only; (repeat' split) <;> simp
@[simp] theorem State.cmdTakeResult_startup (s : State) : (s.cmdTakeResult).startup = s.startup := by
  unfold State.cmdTakeResult State.judged; dsimp only; (repeat' split) <;> simp
@[simp] theorem State.cmdTakeResult_publishAtOnce (s : State) : (s.cmdTakeResult).publishAtOnce = s.publishAtOnce := by
  unfold State.cmdTakeResult State.judged; dsimp only; (repeat' split) <;> simp
@[simp] theorem State.cmdTakeResult_autoOrder (s : State) : (s.cmdTakeResult).autoOrder = s.autoOrder := by
  unfold State.cmdTakeResult State.judged; dsimp only; (repeat' split) <;> simp
@[simp] theorem State.cmdTakeResult_pending (s : State) : (s.cmdTakeResult).pending = s.pending := by
  unfold State.cmdTakeResult State.judged; dsimp only; (repeat' split) <;> simp
@[simp] theorem State.cmdTakeResult_bench_assembly (s : State) : (s.cmdTakeResult).bench.assembly = s.bench.assembly := by
  unfold State.cmdTakeResult State.judged; dsimp only; (repeat' split) <;> simp
@[simp] theorem State.cmdTakeResult_bench_window (s : State) : (s.cmdTakeResult).bench.window = s.bench.window := by
  unfold State.cmdTakeResult State.judged; dsimp only; (repeat' split) <;> simp
@[simp] theorem State.cmdTakeResult_bench_order (s : State) : (s.cmdTakeResult).bench.order = s.bench.order := by
  unfold State.cmdTakeResult State.judged; dsimp only; (repeat' split) <;> simp
@[simp] theorem State.cmdTakeResult_bench_pointer (s : State) : (s.cmdTakeResult).bench.pointer = s.bench.pointer := by
  unfold State.cmdTakeResult State.judged; dsimp only; (repeat' split) <;> simp
@[simp] theorem State.cmdTakeResult_bench_enables (s : State) : (s.cmdTakeResult).bench.enables = s.bench.enables := by
  unfold State.cmdTakeResult State.judged; dsimp only; (repeat' split) <;> simp
@[simp] theorem State.cmdTakeResult_bench_selected (s : State) : (s.cmdTakeResult).bench.selected = s.bench.selected := by
  unfold State.cmdTakeResult State.judged; dsimp only; (repeat' split) <;> simp
@[simp] theorem State.cmdTakeResult_bench_out (s : State) : (s.cmdTakeResult).bench.out = s.bench.out := by
  unfold State.cmdTakeResult State.judged; dsimp only; (repeat' split) <;> simp
@[simp] theorem State.cmdTakeResult_runs_queue (s : State) : (s.cmdTakeResult).runs.queue = s.runs.queue := by
  unfold State.cmdTakeResult State.judged; dsimp only; (repeat' split) <;> simp
@[simp] theorem State.cmdTakeResult_runs_active (s : State) : (s.cmdTakeResult).runs.active = s.runs.active := by
  unfold State.cmdTakeResult State.judged; dsimp only; (repeat' split) <;> simp
@[simp] theorem State.cmdTakeResult_runs_serial (s : State) : (s.cmdTakeResult).runs.serial = s.runs.serial := by
  unfold State.cmdTakeResult State.judged; dsimp only; (repeat' split) <;> simp

/-! ### cmdFeedForwardOn -/

@[simp] theorem State.cmdFeedForwardOn_map (s : State) : (s.cmdFeedForwardOn).map = s.map := by
  unfold State.cmdFeedForwardOn State.judged; dsimp only; (repeat' split) <;> simp
@[simp] theorem State.cmdFeedForwardOn_profiles (s : State) : (s.cmdFeedForwardOn).profiles = s.profiles := by
  unfold State.cmdFeedForwardOn State.judged; dsimp only; (repeat' split) <;> simp
@[simp] theorem State.cmdFeedForwardOn_publishing (s : State) : (s.cmdFeedForwardOn).publishing = s.publishing := by
  unfold State.cmdFeedForwardOn State.judged; dsimp only; (repeat' split) <;> simp
@[simp] theorem State.cmdFeedForwardOn_sweep (s : State) : (s.cmdFeedForwardOn).sweep = s.sweep := by
  unfold State.cmdFeedForwardOn State.judged; dsimp only; (repeat' split) <;> simp
@[simp] theorem State.cmdFeedForwardOn_capture (s : State) : (s.cmdFeedForwardOn).capture = s.capture := by
  unfold State.cmdFeedForwardOn State.judged; dsimp only; (repeat' split) <;> simp
@[simp] theorem State.cmdFeedForwardOn_index (s : State) : (s.cmdFeedForwardOn).index = s.index := by
  unfold State.cmdFeedForwardOn State.judged; dsimp only; (repeat' split) <;> simp
@[simp] theorem State.cmdFeedForwardOn_held (s : State) : (s.cmdFeedForwardOn).held = s.held := by
  unfold State.cmdFeedForwardOn State.judged; dsimp only; (repeat' split) <;> simp
@[simp] theorem State.cmdFeedForwardOn_autoRequests (s : State) : (s.cmdFeedForwardOn).autoRequests = s.autoRequests := by
  unfold State.cmdFeedForwardOn State.judged; dsimp only; (repeat' split) <;> simp
@[simp] theorem State.cmdFeedForwardOn_runs (s : State) : (s.cmdFeedForwardOn).runs = s.runs := by
  unfold State.cmdFeedForwardOn State.judged; dsimp only; (repeat' split) <;> simp
@[simp] theorem State.cmdFeedForwardOn_ff (s : State) : (s.cmdFeedForwardOn).ff = s.ff := by
  unfold State.cmdFeedForwardOn State.judged; dsimp only; (repeat' split) <;> simp
@[simp] theorem State.cmdFeedForwardOn_exclusions (s : State) : (s.cmdFeedForwardOn).exclusions = s.exclusions := by
  unfold State.cmdFeedForwardOn State.judged; dsimp only; (repeat' split) <;> simp
@[simp] theorem State.cmdFeedForwardOn_perms (s : State) : (s.cmdFeedForwardOn).perms = s.perms := by
  unfold State.cmdFeedForwardOn State.judged; dsimp only; (repeat' split) <;> simp
@[simp] theorem State.cmdFeedForwardOn_startup (s : State) : (s.cmdFeedForwardOn).startup = s.startup := by
  unfold State.cmdFeedForwardOn State.judged; dsimp only; (repeat' split) <;> simp
@[simp] theorem State.cmdFeedForwardOn_publishAtOnce (s : State) : (s.cmdFeedForwardOn).publishAtOnce = s.publishAtOnce := by
  unfold State.cmdFeedForwardOn State.judged; dsimp only; (repeat' split) <;> simp
@[simp] theorem State.cmdFeedForwardOn_autoOrder (s : State) : (s.cmdFeedForwardOn).autoOrder = s.autoOrder := by
  unfold State.cmdFeedForwardOn State.judged; dsimp only; (repeat' split) <;> simp
@[simp] theorem State.cmdFeedForwardOn_pending (s : State) : (s.cmdFeedForwardOn).pending = s.pending := by
  unfold State.cmdFeedForwardOn State.judged; dsimp only; (repeat' split) <;> simp
@[simp] theorem State.cmdFeedForwardOn_bench_assembly (s : State) : (s.cmdFeedForwardOn).bench.assembly = s.bench.assembly := by
  unfold State.cmdFeedForwardOn State.judged; dsimp only; (repeat' split) <;> simp
@[simp] theorem State.cmdFeedForwardOn_bench_returnQueue (s : State) : (s.cmdFeedForwardOn).bench.returnQueue = s.bench.returnQueue := by
  unfold State.cmdFeedForwardOn State.judged; dsimp only; (repeat' split) <;> simp
@[simp] theorem State.cmdFeedForwardOn_bench_window (s : State) : (s.cmdFeedForwardOn).bench.window = s.bench.window := by
  unfold State.cmdFeedForwardOn State.judged; dsimp only; (repeat' split) <;> simp
@[simp] theorem State.cmdFeedForwardOn_bench_order (s : State) : (s.cmdFeedForwardOn).bench.order = s.bench.order := by
  unfold State.cmdFeedForwardOn State.judged; dsimp only; (repeat' split) <;> simp
@[simp] theorem State.cmdFeedForwardOn_bench_pointer (s : State) : (s.cmdFeedForwardOn).bench.pointer = s.bench.pointer := by
  unfold State.cmdFeedForwardOn State.judged; dsimp only; (repeat' split) <;> simp
@[simp] theorem State.cmdFeedForwardOn_bench_stream (s : State) : (s.cmdFeedForwardOn).bench.stream = s.bench.stream := by
  unfold State.cmdFeedForwardOn State.judged; dsimp only; (repeat' split) <;> simp
@[simp] theorem State.cmdFeedForwardOn_bench_enables (s : State) : (s.cmdFeedForwardOn).bench.enables = s.bench.enables := by
  unfold State.cmdFeedForwardOn State.judged; dsimp only; (repeat' split) <;> simp
@[simp] theorem State.cmdFeedForwardOn_bench_selected (s : State) : (s.cmdFeedForwardOn).bench.selected = s.bench.selected := by
  unfold State.cmdFeedForwardOn State.judged; dsimp only; (repeat' split) <;> simp
@[simp] theorem State.cmdFeedForwardOn_bench_out (s : State) : (s.cmdFeedForwardOn).bench.out = s.bench.out := by
  unfold State.cmdFeedForwardOn State.judged; dsimp only; (repeat' split) <;> simp

/-! ### cmdFeedForwardOff -/

@[simp] theorem State.cmdFeedForwardOff_sweep (s : State) : (s.cmdFeedForwardOff).sweep = s.sweep := by
  unfold State.cmdFeedForwardOff State.judged; dsimp only; (repeat' split) <;> simp
@[simp] theorem State.cmdFeedForwardOff_capture (s : State) : (s.cmdFeedForwardOff).capture = s.capture := by
  unfold State.cmdFeedForwardOff State.judged; dsimp only; (repeat' split) <;> simp
@[simp] theorem State.cmdFeedForwardOff_held (s : State) : (s.cmdFeedForwardOff).held = s.held := by
  unfold State.cmdFeedForwardOff State.judged; dsimp only; (repeat' split) <;> simp
@[simp] theorem State.cmdFeedForwardOff_autoRequests (s : State) : (s.cmdFeedForwardOff).autoRequests = s.autoRequests := by
  unfold State.cmdFeedForwardOff State.judged; dsimp only; (repeat' split) <;> simp
@[simp] theorem State.cmdFeedForwardOff_ff (s : State) : (s.cmdFeedForwardOff).ff = s.ff := by
  unfold State.cmdFeedForwardOff State.judged; dsimp only; (repeat' split) <;> simp
@[simp] theorem State.cmdFeedForwardOff_exclusions (s : State) : (s.cmdFeedForwardOff).exclusions = s.exclusions := by
  unfold State.cmdFeedForwardOff State.judged; dsimp only; (repeat' split) <;> simp
@[simp] theorem State.cmdFeedForwardOff_perms (s : State) : (s.cmdFeedForwardOff).perms = s.perms := by
  unfold State.cmdFeedForwardOff State.judged; dsimp only; (repeat' split) <;> simp
@[simp] theorem State.cmdFeedForwardOff_startup (s : State) : (s.cmdFeedForwardOff).startup = s.startup := by
  unfold State.cmdFeedForwardOff State.judged; dsimp only; (repeat' split) <;> simp
@[simp] theorem State.cmdFeedForwardOff_publishAtOnce (s : State) : (s.cmdFeedForwardOff).publishAtOnce = s.publishAtOnce := by
  unfold State.cmdFeedForwardOff State.judged; dsimp only; (repeat' split) <;> simp
@[simp] theorem State.cmdFeedForwardOff_autoOrder (s : State) : (s.cmdFeedForwardOff).autoOrder = s.autoOrder := by
  unfold State.cmdFeedForwardOff State.judged; dsimp only; (repeat' split) <;> simp
@[simp] theorem State.cmdFeedForwardOff_pending (s : State) : (s.cmdFeedForwardOff).pending = s.pending := by
  unfold State.cmdFeedForwardOff State.judged; dsimp only; (repeat' split) <;> simp
@[simp] theorem State.cmdFeedForwardOff_bench_assembly (s : State) : (s.cmdFeedForwardOff).bench.assembly = s.bench.assembly := by
  unfold State.cmdFeedForwardOff State.judged; dsimp only; (repeat' split) <;> simp
@[simp] theorem State.cmdFeedForwardOff_bench_returnQueue (s : State) : (s.cmdFeedForwardOff).bench.returnQueue = s.bench.returnQueue := by
  unfold State.cmdFeedForwardOff State.judged; dsimp only; (repeat' split) <;> simp
@[simp] theorem State.cmdFeedForwardOff_bench_window (s : State) : (s.cmdFeedForwardOff).bench.window = s.bench.window := by
  unfold State.cmdFeedForwardOff State.judged; dsimp only; (repeat' split) <;> simp
@[simp] theorem State.cmdFeedForwardOff_bench_order (s : State) : (s.cmdFeedForwardOff).bench.order = s.bench.order := by
  unfold State.cmdFeedForwardOff State.judged; dsimp only; (repeat' split) <;> simp
@[simp] theorem State.cmdFeedForwardOff_bench_pointer (s : State) : (s.cmdFeedForwardOff).bench.pointer = s.bench.pointer := by
  unfold State.cmdFeedForwardOff State.judged; dsimp only; (repeat' split) <;> simp
@[simp] theorem State.cmdFeedForwardOff_bench_stream (s : State) : (s.cmdFeedForwardOff).bench.stream = s.bench.stream := by
  unfold State.cmdFeedForwardOff State.judged; dsimp only; (repeat' split) <;> simp
@[simp] theorem State.cmdFeedForwardOff_bench_enables (s : State) : (s.cmdFeedForwardOff).bench.enables = s.bench.enables := by
  unfold State.cmdFeedForwardOff State.judged; dsimp only; (repeat' split) <;> simp
@[simp] theorem State.cmdFeedForwardOff_bench_selected (s : State) : (s.cmdFeedForwardOff).bench.selected = s.bench.selected := by
  unfold State.cmdFeedForwardOff State.judged; dsimp only; (repeat' split) <;> simp
@[simp] theorem State.cmdFeedForwardOff_bench_out (s : State) : (s.cmdFeedForwardOff).bench.out = s.bench.out := by
  unfold State.cmdFeedForwardOff State.judged; dsimp only; (repeat' split) <;> simp
@[simp] theorem State.cmdFeedForwardOff_runs_queue (s : State) : (s.cmdFeedForwardOff).runs.queue = s.runs.queue := by
  unfold State.cmdFeedForwardOff State.judged; dsimp only; (repeat' split) <;> simp
@[simp] theorem State.cmdFeedForwardOff_runs_serial (s : State) : (s.cmdFeedForwardOff).runs.serial = s.runs.serial := by
  unfold State.cmdFeedForwardOff State.judged; dsimp only; (repeat' split) <;> simp

/-! ### excludeCell -/

@[simp] theorem State.excludeCell_profiles (s : State) (h : Head) (w : Nat) : (s.excludeCell h w).profiles = s.profiles := by
  unfold State.excludeCell; (repeat' split) <;> simp
@[simp] theorem State.excludeCell_publishing (s : State) (h : Head) (w : Nat) : (s.excludeCell h w).publishing = s.publishing := by
  unfold State.excludeCell; (repeat' split) <;> simp
@[simp] theorem State.excludeCell_settings (s : State) (h : Head) (w : Nat) : (s.excludeCell h w).settings = s.settings := by
  unfold State.excludeCell; (repeat' split) <;> simp
@[simp] theorem State.excludeCell_sweep (s : State) (h : Head) (w : Nat) : (s.excludeCell h w).sweep = s.sweep := by
  unfold State.excludeCell; (repeat' split) <;> simp
@[simp] theorem State.excludeCell_capture (s : State) (h : Head) (w : Nat) : (s.excludeCell h w).capture = s.capture := by
  unfold State.excludeCell; (repeat' split) <;> simp
@[simp] theorem State.excludeCell_index (s : State) (h : Head) (w : Nat) : (s.excludeCell h w).index = s.index := by
  unfold State.excludeCell; (repeat' split) <;> simp
@[simp] theorem State.excludeCell_held (s : State) (h : Head) (w : Nat) : (s.excludeCell h w).held = s.held := by
  unfold State.excludeCell; (repeat' split) <;> simp
@[simp] theorem State.excludeCell_autoRequests (s : State) (h : Head) (w : Nat) : (s.excludeCell h w).autoRequests = s.autoRequests := by
  unfold State.excludeCell; (repeat' split) <;> simp
@[simp] theorem State.excludeCell_runs (s : State) (h : Head) (w : Nat) : (s.excludeCell h w).runs = s.runs := by
  unfold State.excludeCell; (repeat' split) <;> simp
@[simp] theorem State.excludeCell_ff (s : State) (h : Head) (w : Nat) : (s.excludeCell h w).ff = s.ff := by
  unfold State.excludeCell; (repeat' split) <;> simp
@[simp] theorem State.excludeCell_perms (s : State) (h : Head) (w : Nat) : (s.excludeCell h w).perms = s.perms := by
  unfold State.excludeCell; (repeat' split) <;> simp
@[simp] theorem State.excludeCell_startup (s : State) (h : Head) (w : Nat) : (s.excludeCell h w).startup = s.startup := by
  unfold State.excludeCell; (repeat' split) <;> simp
@[simp] theorem State.excludeCell_publishAtOnce (s : State) (h : Head) (w : Nat) : (s.excludeCell h w).publishAtOnce = s.publishAtOnce := by
  unfold State.excludeCell; (repeat' split) <;> simp
@[simp] theorem State.excludeCell_autoOrder (s : State) (h : Head) (w : Nat) : (s.excludeCell h w).autoOrder = s.autoOrder := by
  unfold State.excludeCell; (repeat' split) <;> simp
@[simp] theorem State.excludeCell_pending (s : State) (h : Head) (w : Nat) : (s.excludeCell h w).pending = s.pending := by
  unfold State.excludeCell; (repeat' split) <;> simp
@[simp] theorem State.excludeCell_bench_assembly (s : State) (h : Head) (w : Nat) : (s.excludeCell h w).bench.assembly = s.bench.assembly := by
  unfold State.excludeCell; (repeat' split) <;> simp
@[simp] theorem State.excludeCell_bench_returnQueue (s : State) (h : Head) (w : Nat) : (s.excludeCell h w).bench.returnQueue = s.bench.returnQueue := by
  unfold State.excludeCell; (repeat' split) <;> simp
@[simp] theorem State.excludeCell_bench_window (s : State) (h : Head) (w : Nat) : (s.excludeCell h w).bench.window = s.bench.window := by
  unfold State.excludeCell; (repeat' split) <;> simp
@[simp] theorem State.excludeCell_bench_order (s : State) (h : Head) (w : Nat) : (s.excludeCell h w).bench.order = s.bench.order := by
  unfold State.excludeCell; (repeat' split) <;> simp
@[simp] theorem State.excludeCell_bench_pointer (s : State) (h : Head) (w : Nat) : (s.excludeCell h w).bench.pointer = s.bench.pointer := by
  unfold State.excludeCell; (repeat' split) <;> simp
@[simp] theorem State.excludeCell_bench_stream (s : State) (h : Head) (w : Nat) : (s.excludeCell h w).bench.stream = s.bench.stream := by
  unfold State.excludeCell; (repeat' split) <;> simp
@[simp] theorem State.excludeCell_bench_enables (s : State) (h : Head) (w : Nat) : (s.excludeCell h w).bench.enables = s.bench.enables := by
  unfold State.excludeCell; (repeat' split) <;> simp
@[simp] theorem State.excludeCell_bench_selected (s : State) (h : Head) (w : Nat) : (s.excludeCell h w).bench.selected = s.bench.selected := by
  unfold State.excludeCell; (repeat' split) <;> simp
@[simp] theorem State.excludeCell_bench_out (s : State) (h : Head) (w : Nat) : (s.excludeCell h w).bench.out = s.bench.out := by
  unfold State.excludeCell; (repeat' split) <;> simp

/-! ### cmdExclude -/

@[simp] theorem State.cmdExclude_profiles (s : State) (h w : Word) : (s.cmdExclude h w).profiles = s.profiles := by
  unfold State.cmdExclude State.judged; dsimp only; (repeat' split) <;> simp
@[simp] theorem State.cmdExclude_publishing (s : State) (h w : Word) : (s.cmdExclude h w).publishing = s.publishing := by
  unfold State.cmdExclude State.judged; dsimp only; (repeat' split) <;> simp
@[simp] theorem State.cmdExclude_settings (s : State) (h w : Word) : (s.cmdExclude h w).settings = s.settings := by
  unfold State.cmdExclude State.judged; dsimp only; (repeat' split) <;> simp
@[simp] theorem State.cmdExclude_sweep (s : State) (h w : Word) : (s.cmdExclude h w).sweep = s.sweep := by
  unfold State.cmdExclude State.judged; dsimp only; (repeat' split) <;> simp
@[simp] theorem State.cmdExclude_capture (s : State) (h w : Word) : (s.cmdExclude h w).capture = s.capture := by
  unfold State.cmdExclude State.judged; dsimp only; (repeat' split) <;> simp
@[simp] theorem State.cmdExclude_index (s : State) (h w : Word) : (s.cmdExclude h w).index = s.index := by
  unfold State.cmdExclude State.judged; dsimp only; (repeat' split) <;> simp
@[simp] theorem State.cmdExclude_held (s : State) (h w : Word) : (s.cmdExclude h w).held = s.held := by
  unfold State.cmdExclude State.judged; dsimp only; (repeat' split) <;> simp
@[simp] theorem State.cmdExclude_autoRequests (s : State) (h w : Word) : (s.cmdExclude h w).autoRequests = s.autoRequests := by
  unfold State.cmdExclude State.judged; dsimp only; (repeat' split) <;> simp
@[simp] theorem State.cmdExclude_runs (s : State) (h w : Word) : (s.cmdExclude h w).runs = s.runs := by
  unfold State.cmdExclude State.judged; dsimp only; (repeat' split) <;> simp
@[simp] theorem State.cmdExclude_ff (s : State) (h w : Word) : (s.cmdExclude h w).ff = s.ff := by
  unfold State.cmdExclude State.judged; dsimp only; (repeat' split) <;> simp
@[simp] theorem State.cmdExclude_perms (s : State) (h w : Word) : (s.cmdExclude h w).perms = s.perms := by
  unfold State.cmdExclude State.judged; dsimp only; (repeat' split) <;> simp
@[simp] theorem State.cmdExclude_startup (s : State) (h w : Word) : (s.cmdExclude h w).startup = s.startup := by
  unfold State.cmdExclude State.judged; dsimp only; (repeat' split) <;> simp
@[simp] theorem State.cmdExclude_publishAtOnce (s : State) (h w : Word) : (s.cmdExclude h w).publishAtOnce = s.publishAtOnce := by
  unfold State.cmdExclude State.judged; dsimp only; (repeat' split) <;> simp
@[simp] theorem State.cmdExclude_autoOrder (s : State) (h w : Word) : (s.cmdExclude h w).autoOrder = s.autoOrder := by
  unfold State.cmdExclude State.judged; dsimp only; (repeat' split) <;> simp
@[simp] theorem State.cmdExclude_pending (s : State) (h w : Word) : (s.cmdExclude h w).pending = s.pending := by
  unfold State.cmdExclude State.judged; dsimp only; (repeat' split) <;> simp
@[simp] theorem State.cmdExclude_bench_assembly (s : State) (h w : Word) : (s.cmdExclude h w).bench.assembly = s.bench.assembly := by
  unfold State.cmdExclude State.judged; dsimp only; (repeat' split) <;> simp
@[simp] theorem State.cmdExclude_bench_returnQueue (s : State) (h w : Word) : (s.cmdExclude h w).bench.returnQueue = s.bench.returnQueue := by
  unfold State.cmdExclude State.judged; dsimp only; (repeat' split) <;> simp
@[simp] theorem State.cmdExclude_bench_window (s : State) (h w : Word) : (s.cmdExclude h w).bench.window = s.bench.window := by
  unfold State.cmdExclude State.judged; dsimp only; (repeat' split) <;> simp
@[simp] theorem State.cmdExclude_bench_order (s : State) (h w : Word) : (s.cmdExclude h w).bench.order = s.bench.order := by
  unfold State.cmdExclude State.judged; dsimp only; (repeat' split) <;> simp
@[simp] theorem State.cmdExclude_bench_pointer (s : State) (h w : Word) : (s.cmdExclude h w).bench.pointer = s.bench.pointer := by
  unfold State.cmdExclude State.judged; dsimp only; (repeat' split) <;> simp
@[simp] theorem State.cmdExclude_bench_stream (s : State) (h w : Word) : (s.cmdExclude h w).bench.stream = s.bench.stream := by
  unfold State.cmdExclude State.judged; dsimp only; (repeat' split) <;> simp
@[simp] theorem State.cmdExclude_bench_enables (s : State) (h w : Word) : (s.cmdExclude h w).bench.enables = s.bench.enables := by
  unfold State.cmdExclude State.judged; dsimp only; (repeat' split) <;> simp
@[simp] theorem State.cmdExclude_bench_selected (s : State) (h w : Word) : (s.cmdExclude h w).bench.selected = s.bench.selected := by
  unfold State.cmdExclude State.judged; dsimp only; (repeat' split) <;> simp
@[simp] theorem State.cmdExclude_bench_out (s : State) (h w : Word) : (s.cmdExclude h w).bench.out = s.bench.out := by
  unfold State.cmdExclude State.judged; dsimp only; (repeat' split) <;> simp

/-! ### cmdInclude -/

@[simp] theorem State.cmdInclude_profiles (s : State) (h w : Word) : (s.cmdInclude h w).profiles = s.profiles := by
  unfold State.cmdInclude State.judged; dsimp only; (repeat' split) <;> simp
@[simp] theorem State.cmdInclude_publishing (s : State) (h w : Word) : (s.cmdInclude h w).publishing = s.publishing := by
  unfold State.cmdInclude State.judged; dsimp only; (repeat' split) <;> simp
@[simp] theorem State.cmdInclude_settings (s : State) (h w : Word) : (s.cmdInclude h w).settings = s.settings := by
  unfold State.cmdInclude State.judged; dsimp only; (repeat' split) <;> simp
@[simp] theorem State.cmdInclude_sweep (s : State) (h w : Word) : (s.cmdInclude h w).sweep = s.sweep := by
  unfold State.cmdInclude State.judged; dsimp only; (repeat' split) <;> simp
@[simp] theorem State.cmdInclude_capture (s : State) (h w : Word) : (s.cmdInclude h w).capture = s.capture := by
  unfold State.cmdInclude State.judged; dsimp only; (repeat' split) <;> simp
@[simp] theorem State.cmdInclude_index (s : State) (h w : Word) : (s.cmdInclude h w).index = s.index := by
  unfold State.cmdInclude State.judged; dsimp only; (repeat' split) <;> simp
@[simp] theorem State.cmdInclude_held (s : State) (h w : Word) : (s.cmdInclude h w).held = s.held := by
  unfold State.cmdInclude State.judged; dsimp only; (repeat' split) <;> simp
@[simp] theorem State.cmdInclude_autoRequests (s : State) (h w : Word) : (s.cmdInclude h w).autoRequests = s.autoRequests := by
  unfold State.cmdInclude State.judged; dsimp only; (repeat' split) <;> simp
@[simp] theorem State.cmdInclude_runs (s : State) (h w : Word) : (s.cmdInclude h w).runs = s.runs := by
  unfold State.cmdInclude State.judged; dsimp only; (repeat' split) <;> simp
@[simp] theorem State.cmdInclude_ff (s : State) (h w : Word) : (s.cmdInclude h w).ff = s.ff := by
  unfold State.cmdInclude State.judged; dsimp only; (repeat' split) <;> simp
@[simp] theorem State.cmdInclude_perms (s : State) (h w : Word) : (s.cmdInclude h w).perms = s.perms := by
  unfold State.cmdInclude State.judged; dsimp only; (repeat' split) <;> simp
@[simp] theorem State.cmdInclude_startup (s : State) (h w : Word) : (s.cmdInclude h w).startup = s.startup := by
  unfold State.cmdInclude State.judged; dsimp only; (repeat' split) <;> simp
@[simp] theorem State.cmdInclude_publishAtOnce (s : State) (h w : Word) : (s.cmdInclude h w).publishAtOnce = s.publishAtOnce := by
  unfold State.cmdInclude State.judged; dsimp only; (repeat' split) <;> simp
@[simp] theorem State.cmdInclude_autoOrder (s : State) (h w : Word) : (s.cmdInclude h w).autoOrder = s.autoOrder := by
  unfold State.cmdInclude State.judged; dsimp only; (repeat' split) <;> simp
@[simp] theorem State.cmdInclude_pending (s : State) (h w : Word) : (s.cmdInclude h w).pending = s.pending := by
  unfold State.cmdInclude State.judged; dsimp only; (repeat' split) <;> simp
@[simp] theorem State.cmdInclude_bench_assembly (s : State) (h w : Word) : (s.cmdInclude h w).bench.assembly = s.bench.assembly := by
  unfold State.cmdInclude State.judged; dsimp only; (repeat' split) <;> simp
@[simp] theorem State.cmdInclude_bench_returnQueue (s : State) (h w : Word) : (s.cmdInclude h w).bench.returnQueue = s.bench.returnQueue := by
  unfold State.cmdInclude State.judged; dsimp only; (repeat' split) <;> simp
@[simp] theorem State.cmdInclude_bench_window (s : State) (h w : Word) : (s.cmdInclude h w).bench.window = s.bench.window := by
  unfold State.cmdInclude State.judged; dsimp only; (repeat' split) <;> simp
@[simp] theorem State.cmdInclude_bench_order (s : State) (h w : Word) : (s.cmdInclude h w).bench.order = s.bench.order := by
  unfold State.cmdInclude State.judged; dsimp only; (repeat' split) <;> simp
@[simp] theorem State.cmdInclude_bench_pointer (s : State) (h w : Word) : (s.cmdInclude h w).bench.pointer = s.bench.pointer := by
  unfold State.cmdInclude State.judged; dsimp only; (repeat' split) <;> simp
@[simp] theorem State.cmdInclude_bench_stream (s : State) (h w : Word) : (s.cmdInclude h w).bench.stream = s.bench.stream := by
  unfold State.cmdInclude State.judged; dsimp only; (repeat' split) <;> simp
@[simp] theorem State.cmdInclude_bench_enables (s : State) (h w : Word) : (s.cmdInclude h w).bench.enables = s.bench.enables := by
  unfold State.cmdInclude State.judged; dsimp only; (repeat' split) <;> simp
@[simp] theorem State.cmdInclude_bench_selected (s : State) (h w : Word) : (s.cmdInclude h w).bench.selected = s.bench.selected := by
  unfold State.cmdInclude State.judged; dsimp only; (repeat' split) <;> simp
@[simp] theorem State.cmdInclude_bench_out (s : State) (h w : Word) : (s.cmdInclude h w).bench.out = s.bench.out := by
  unfold State.cmdInclude State.judged; dsimp only; (repeat' split) <;> simp

/-! ### cmdClearExclusions -/

@[simp] theorem State.cmdClearExclusions_profiles (s : State) (hs : Word) : (s.cmdClearExclusions hs).profiles = s.profiles := by
  unfold State.cmdClearExclusions State.judged; dsimp only; (repeat' split) <;> simp
@[simp] theorem State.cmdClearExclusions_publishing (s : State) (hs : Word) : (s.cmdClearExclusions hs).publishing = s.publishing := by
  unfold State.cmdClearExclusions State.judged; dsimp only; (repeat' split) <;> simp
@[simp] theorem State.cmdClearExclusions_settings (s : State) (hs : Word) : (s.cmdClearExclusions hs).settings = s.settings := by
  unfold State.cmdClearExclusions State.judged; dsimp only; (repeat' split) <;> simp
@[simp] theorem State.cmdClearExclusions_sweep (s : State) (hs : Word) : (s.cmdClearExclusions hs).sweep = s.sweep := by
  unfold State.cmdClearExclusions State.judged; dsimp only; (repeat' split) <;> simp
@[simp] theorem State.cmdClearExclusions_capture (s : State) (hs : Word) : (s.cmdClearExclusions hs).capture = s.capture := by
  unfold State.cmdClearExclusions State.judged; dsimp only; (repeat' split) <;> simp
@[simp] theorem State.cmdClearExclusions_index (s : State) (hs : Word) : (s.cmdClearExclusions hs).index = s.index := by
  unfold State.cmdClearExclusions State.judged; dsimp only; (repeat' split) <;> simp
@[simp] theorem State.cmdClearExclusions_held (s : State) (hs : Word) : (s.cmdClearExclusions hs).held = s.held := by
  unfold State.cmdClearExclusions State.judged; dsimp only; (repeat' split) <;> simp
@[simp] theorem State.cmdClearExclusions_autoRequests (s : State) (hs : Word) : (s.cmdClearExclusions hs).autoRequests = s.autoRequests := by
  unfold State.cmdClearExclusions State.judged; dsimp only; (repeat' split) <;> simp
@[simp] theorem State.cmdClearExclusions_runs (s : State) (hs : Word) : (s.cmdClearExclusions hs).runs = s.runs := by
  unfold State.cmdClearExclusions State.judged; dsimp only; (repeat' split) <;> simp
@[simp] theorem State.cmdClearExclusions_ff (s : State) (hs : Word) : (s.cmdClearExclusions hs).ff = s.ff := by
  unfold State.cmdClearExclusions State.judged; dsimp only; (repeat' split) <;> simp
@[simp] theorem State.cmdClearExclusions_perms (s : State) (hs : Word) : (s.cmdClearExclusions hs).perms = s.perms := by
  unfold State.cmdClearExclusions State.judged; dsimp only; (repeat' split) <;> simp
@[simp] theorem State.cmdClearExclusions_startup (s : State) (hs : Word) : (s.cmdClearExclusions hs).startup = s.startup := by
  unfold State.cmdClearExclusions State.judged; dsimp only; (repeat' split) <;> simp
@[simp] theorem State.cmdClearExclusions_publishAtOnce (s : State) (hs : Word) : (s.cmdClearExclusions hs).publishAtOnce = s.publishAtOnce := by
  unfold State.cmdClearExclusions State.judged; dsimp only; (repeat' split) <;> simp
@[simp] theorem State.cmdClearExclusions_autoOrder (s : State) (hs : Word) : (s.cmdClearExclusions hs).autoOrder = s.autoOrder := by
  unfold State.cmdClearExclusions State.judged; dsimp only; (repeat' split) <;> simp
@[simp] theorem State.cmdClearExclusions_pending (s : State) (hs : Word) : (s.cmdClearExclusions hs).pending = s.pending := by
  unfold State.cmdClearExclusions State.judged; dsimp only; (repeat' split) <;> simp
@[simp] theorem State.cmdClearExclusions_bench_assembly (s : State) (hs : Word) : (s.cmdClearExclusions hs).bench.assembly = s.bench.assembly := by
  unfold State.cmdClearExclusions State.judged; dsimp only; (repeat' split) <;> simp
@[simp] theorem State.cmdClearExclusions_bench_returnQueue (s : State) (hs : Word) : (s.cmdClearExclusions hs).bench.returnQueue = s.bench.returnQueue := by
  unfold State.cmdClearExclusions State.judged; dsimp only; (repeat' split) <;> simp
@[simp] theorem State.cmdClearExclusions_bench_window (s : State) (hs : Word) : (s.cmdClearExclusions hs).bench.window = s.bench.window := by
  unfold State.cmdClearExclusions State.judged; dsimp only; (repeat' split) <;> simp
@[simp] theorem State.cmdClearExclusions_bench_order (s : State) (hs : Word) : (s.cmdClearExclusions hs).bench.order = s.bench.order := by
  unfold State.cmdClearExclusions State.judged; dsimp only; (repeat' split) <;> simp
@[simp] theorem State.cmdClearExclusions_bench_pointer (s : State) (hs : Word) : (s.cmdClearExclusions hs).bench.pointer = s.bench.pointer := by
  unfold State.cmdClearExclusions State.judged; dsimp only; (repeat' split) <;> simp
@[simp] theorem State.cmdClearExclusions_bench_stream (s : State) (hs : Word) : (s.cmdClearExclusions hs).bench.stream = s.bench.stream := by
  unfold State.cmdClearExclusions State.judged; dsimp only; (repeat' split) <;> simp
@[simp] theorem State.cmdClearExclusions_bench_enables (s : State) (hs : Word) : (s.cmdClearExclusions hs).bench.enables = s.bench.enables := by
  unfold State.cmdClearExclusions State.judged; dsimp only; (repeat' split) <;> simp
@[simp] theorem State.cmdClearExclusions_bench_selected (s : State) (hs : Word) : (s.cmdClearExclusions hs).bench.selected = s.bench.selected := by
  unfold State.cmdClearExclusions State.judged; dsimp only; (repeat' split) <;> simp
@[simp] theorem State.cmdClearExclusions_bench_out (s : State) (hs : Word) : (s.cmdClearExclusions hs).bench.out = s.bench.out := by
  unfold State.cmdClearExclusions State.judged; dsimp only; (repeat' split) <;> simp

/-! ### cmdSetPermissions -/

@[simp] theorem State.cmdSetPermissions_map (s : State) (a b c : Word) : (s.cmdSetPermissions a b c).map = s.map := by
  unfold State.cmdSetPermissions State.judged; dsimp only; (repeat' split) <;> simp
@[simp] theorem State.cmdSetPermissions_profiles (s : State) (a b c : Word) : (s.cmdSetPermissions a b c).profiles = s.profiles := by
  unfold State.cmdSetPermissions State.judged; dsimp only; (repeat' split) <;> simp
@[simp] theorem State.cmdSetPermissions_publishing (s : State) (a b c : Word) : (s.cmdSetPermissions a b c).publishing = s.publishing := by
  unfold State.cmdSetPermissions State.judged; dsimp only; (repeat' split) <;> simp
@[simp] theorem State.cmdSetPermissions_settings (s : State) (a b c : Word) : (s.cmdSetPermissions a b c).settings = s.settings := by
  unfold State.cmdSetPermissions State.judged; dsimp only; (repeat' split) <;> simp
@[simp] theorem State.cmdSetPermissions_sweep (s : State) (a b c : Word) : (s.cmdSetPermissions a b c).sweep = s.sweep := by
  unfold State.cmdSetPermissions State.judged; dsimp only; (repeat' split) <;> simp
@[simp] theorem State.cmdSetPermissions_capture (s : State) (a b c : Word) : (s.cmdSetPermissions a b c).capture = s.capture := by
  unfold State.cmdSetPermissions State.judged; dsimp only; (repeat' split) <;> simp
@[simp] theorem State.cmdSetPermissions_index (s : State) (a b c : Word) : (s.cmdSetPermissions a b c).index = s.index := by
  unfold State.cmdSetPermissions State.judged; dsimp only; (repeat' split) <;> simp
@[simp] theorem State.cmdSetPermissions_held (s : State) (a b c : Word) : (s.cmdSetPermissions a b c).held = s.held := by
  unfold State.cmdSetPermissions State.judged; dsimp only; (repeat' split) <;> simp
@[simp] theorem State.cmdSetPermissions_autoRequests (s : State) (a b c : Word) : (s.cmdSetPermissions a b c).autoRequests = s.autoRequests := by
  unfold State.cmdSetPermissions State.judged; dsimp only; (repeat' split) <;> simp
@[simp] theorem State.cmdSetPermissions_runs (s : State) (a b c : Word) : (s.cmdSetPermissions a b c).runs = s.runs := by
  unfold State.cmdSetPermissions State.judged; dsimp only; (repeat' split) <;> simp
@[simp] theorem State.cmdSetPermissions_ff (s : State) (a b c : Word) : (s.cmdSetPermissions a b c).ff = s.ff := by
  unfold State.cmdSetPermissions State.judged; dsimp only; (repeat' split) <;> simp
@[simp] theorem State.cmdSetPermissions_exclusions (s : State) (a b c : Word) : (s.cmdSetPermissions a b c).exclusions = s.exclusions := by
  unfold State.cmdSetPermissions State.judged; dsimp only; (repeat' split) <;> simp
@[simp] theorem State.cmdSetPermissions_startup (s : State) (a b c : Word) : (s.cmdSetPermissions a b c).startup = s.startup := by
  unfold State.cmdSetPermissions State.judged; dsimp only; (repeat' split) <;> simp
@[simp] theorem State.cmdSetPermissions_publishAtOnce (s : State) (a b c : Word) : (s.cmdSetPermissions a b c).publishAtOnce = s.publishAtOnce := by
  unfold State.cmdSetPermissions State.judged; dsimp only; (repeat' split) <;> simp
@[simp] theorem State.cmdSetPermissions_autoOrder (s : State) (a b c : Word) : (s.cmdSetPermissions a b c).autoOrder = s.autoOrder := by
  unfold State.cmdSetPermissions State.judged; dsimp only; (repeat' split) <;> simp
@[simp] theorem State.cmdSetPermissions_pending (s : State) (a b c : Word) : (s.cmdSetPermissions a b c).pending = s.pending := by
  unfold State.cmdSetPermissions State.judged; dsimp only; (repeat' split) <;> simp
@[simp] theorem State.cmdSetPermissions_bench_assembly (s : State) (a b c : Word) : (s.cmdSetPermissions a b c).bench.assembly = s.bench.assembly := by
  unfold State.cmdSetPermissions State.judged; dsimp only; (repeat' split) <;> simp
@[simp] theorem State.cmdSetPermissions_bench_returnQueue (s : State) (a b c : Word) : (s.cmdSetPermissions a b c).bench.returnQueue = s.bench.returnQueue := by
  unfold State.cmdSetPermissions State.judged; dsimp only; (repeat' split) <;> simp
@[simp] theorem State.cmdSetPermissions_bench_window (s : State) (a b c : Word) : (s.cmdSetPermissions a b c).bench.window = s.bench.window := by
  unfold State.cmdSetPermissions State.judged; dsimp only; (repeat' split) <;> simp
@[simp] theorem State.cmdSetPermissions_bench_order (s : State) (a b c : Word) : (s.cmdSetPermissions a b c).bench.order = s.bench.order := by
  unfold State.cmdSetPermissions State.judged; dsimp only; (repeat' split) <;> simp
@[simp] theorem State.cmdSetPermissions_bench_pointer (s : State) (a b c : Word) : (s.cmdSetPermissions a b c).bench.pointer = s.bench.pointer := by
  unfold State.cmdSetPermissions State.judged; dsimp only; (repeat' split) <;> simp
@[simp] theorem State.cmdSetPermissions_bench_stream (s : State) (a b c : Word) : (s.cmdSetPermissions a b c).bench.stream = s.bench.stream := by
  unfold State.cmdSetPermissions State.judged; dsimp only; (repeat' split) <;> simp
@[simp] theorem State.cmdSetPermissions_bench_enables (s : State) (a b c : Word) : (s.cmdSetPermissions a b c).bench.enables = s.bench.enables := by
  unfold State.cmdSetPermissions State.judged; dsimp only; (repeat' split) <;> simp
@[simp] theorem State.cmdSetPermissions_bench_selected (s : State) (a b c : Word) : (s.cmdSetPermissions a b c).bench.selected = s.bench.selected := by
  unfold State.cmdSetPermissions State.judged; dsimp only; (repeat' split) <;> simp
@[simp] theorem State.cmdSetPermissions_bench_out (s : State) (a b c : Word) : (s.cmdSetPermissions a b c).bench.out = s.bench.out := by
  unfold State.cmdSetPermissions State.judged; dsimp only; (repeat' split) <;> simp

/-! ### cmdReadExclusions -/

@[simp] theorem State.cmdReadExclusions_map (s : State) : (s.cmdReadExclusions).map = s.map := by
  unfold State.cmdReadExclusions State.judged; dsimp only; (repeat' split) <;> simp
@[simp] theorem State.cmdReadExclusions_profiles (s : State) : (s.cmdReadExclusions).profiles = s.profiles := by
  unfold State.cmdReadExclusions State.judged; dsimp only; (repeat' split) <;> simp
@[simp] theorem State.cmdReadExclusions_publishing (s : State) : (s.cmdReadExclusions).publishing = s.publishing := by
  unfold State.cmdReadExclusions State.judged; dsimp only; (repeat' split) <;> simp
@[simp] theorem State.cmdReadExclusions_settings (s : State) : (s.cmdReadExclusions).settings = s.settings := by
  unfold State.cmdReadExclusions State.judged; dsimp only; (repeat' split) <;> simp
@[simp] theorem State.cmdReadExclusions_sweep (s : State) : (s.cmdReadExclusions).sweep = s.sweep := by
  unfold State.cmdReadExclusions State.judged; dsimp only; (repeat' split) <;> simp
@[simp] theorem State.cmdReadExclusions_capture (s : State) : (s.cmdReadExclusions).capture = s.capture := by
  unfold State.cmdReadExclusions State.judged; dsimp only; (repeat' split) <;> simp
@[simp] theorem State.cmdReadExclusions_index (s : State) : (s.cmdReadExclusions).index = s.index := by
  unfold State.cmdReadExclusions State.judged; dsimp only; (repeat' split) <;> simp
@[simp] theorem State.cmdReadExclusions_held (s : State) : (s.cmdReadExclusions).held = s.held := by
  unfold State.cmdReadExclusions State.judged; dsimp only; (repeat' split) <;> simp
@[simp] theorem State.cmdReadExclusions_autoRequests (s : State) : (s.cmdReadExclusions).autoRequests = s.autoRequests := by
  unfold State.cmdReadExclusions State.judged; dsimp only; (repeat' split) <;> simp
@[simp] theorem State.cmdReadExclusions_ff (s : State) : (s.cmdReadExclusions).ff = s.ff := by
  unfold State.cmdReadExclusions State.judged; dsimp only; (repeat' split) <;> simp
@[simp] theorem State.cmdReadExclusions_exclusions (s : State) : (s.cmdReadExclusions).exclusions = s.exclusions := by
  unfold State.cmdReadExclusions State.judged; dsimp only; (repeat' split) <;> simp
@[simp] theorem State.cmdReadExclusions_perms (s : State) : (s.cmdReadExclusions).perms = s.perms := by
  unfold State.cmdReadExclusions State.judged; dsimp only; (repeat' split) <;> simp
@[simp] theorem State.cmdReadExclusions_startup (s : State) : (s.cmdReadExclusions).startup = s.startup := by
  unfold State.cmdReadExclusions State.judged; dsimp only; (repeat' split) <;> simp
@[simp] theorem State.cmdReadExclusions_publishAtOnce (s : State) : (s.cmdReadExclusions).publishAtOnce = s.publishAtOnce := by
  unfold State.cmdReadExclusions State.judged; dsimp only; (repeat' split) <;> simp
@[simp] theorem State.cmdReadExclusions_autoOrder (s : State) : (s.cmdReadExclusions).autoOrder = s.autoOrder := by
  unfold State.cmdReadExclusions State.judged; dsimp only; (repeat' split) <;> simp
@[simp] theorem State.cmdReadExclusions_pending (s : State) : (s.cmdReadExclusions).pending = s.pending := by
  unfold State.cmdReadExclusions State.judged; dsimp only; (repeat' split) <;> simp
@[simp] theorem State.cmdReadExclusions_bench_assembly (s : State) : (s.cmdReadExclusions).bench.assembly = s.bench.assembly := by
  unfold State.cmdReadExclusions State.judged; dsimp only; (repeat' split) <;> simp
@[simp] theorem State.cmdReadExclusions_bench_window (s : State) : (s.cmdReadExclusions).bench.window = s.bench.window := by
  unfold State.cmdReadExclusions State.judged; dsimp only; (repeat' split) <;> simp
@[simp] theorem State.cmdReadExclusions_bench_order (s : State) : (s.cmdReadExclusions).bench.order = s.bench.order := by
  unfold State.cmdReadExclusions State.judged; dsimp only; (repeat' split) <;> simp
@[simp] theorem State.cmdReadExclusions_bench_pointer (s : State) : (s.cmdReadExclusions).bench.pointer = s.bench.pointer := by
  unfold State.cmdReadExclusions State.judged; dsimp only; (repeat' split) <;> simp
@[simp] theorem State.cmdReadExclusions_bench_enables (s : State) : (s.cmdReadExclusions).bench.enables = s.bench.enables := by
  unfold State.cmdReadExclusions State.judged; dsimp only; (repeat' split) <;> simp
@[simp] theorem State.cmdReadExclusions_bench_selected (s : State) : (s.cmdReadExclusions).bench.selected = s.bench.selected := by
  unfold State.cmdReadExclusions State.judged; dsimp only; (repeat' split) <;> simp
@[simp] theorem State.cmdReadExclusions_bench_out (s : State) : (s.cmdReadExclusions).bench.out = s.bench.out := by
  unfold State.cmdReadExclusions State.judged; dsimp only; (repeat' split) <;> simp
@[simp] theorem State.cmdReadExclusions_runs_queue (s : State) : (s.cmdReadExclusions).runs.queue = s.runs.queue := by
  unfold State.cmdReadExclusions State.judged; dsimp only; (repeat' split) <;> simp
@[simp] theorem State.cmdReadExclusions_runs_active (s : State) : (s.cmdReadExclusions).runs.active = s.runs.active := by
  unfold State.cmdReadExclusions State.judged; dsimp only; (repeat' split) <;> simp
@[simp] theorem State.cmdReadExclusions_runs_serial (s : State) : (s.cmdReadExclusions).runs.serial = s.runs.serial := by
  unfold State.cmdReadExclusions State.judged; dsimp only; (repeat' split) <;> simp

/-! ### cmdReadPermissions -/

@[simp] theorem State.cmdReadPermissions_map (s : State) : (s.cmdReadPermissions).map = s.map := by
  unfold State.cmdReadPermissions State.judged; dsimp only; (repeat' split) <;> simp
@[simp] theorem State.cmdReadPermissions_profiles (s : State) : (s.cmdReadPermissions).profiles = s.profiles := by
  unfold State.cmdReadPermissions State.judged; dsimp only; (repeat' split) <;> simp
@[simp] theorem State.cmdReadPermissions_publishing (s : State) : (s.cmdReadPermissions).publishing = s.publishing := by
  unfold State.cmdReadPermissions State.judged; dsimp only; (repeat' split) <;> simp
@[simp] theorem State.cmdReadPermissions_settings (s : State) : (s.cmdReadPermissions).settings = s.settings := by
  unfold State.cmdReadPermissions State.judged; dsimp only; (repeat' split) <;> simp
@[simp] theorem State.cmdReadPermissions_sweep (s : State) : (s.cmdReadPermissions).sweep = s.sweep := by
  unfold State.cmdReadPermissions State.judged; dsimp only; (repeat' split) <;> simp
@[simp] theorem State.cmdReadPermissions_capture (s : State) : (s.cmdReadPermissions).capture = s.capture := by
  unfold State.cmdReadPermissions State.judged; dsimp only; (repeat' split) <;> simp
@[simp] theorem State.cmdReadPermissions_index (s : State) : (s.cmdReadPermissions).index = s.index := by
  unfold State.cmdReadPermissions State.judged; dsimp only; (repeat' split) <;> simp
@[simp] theorem State.cmdReadPermissions_held (s : State) : (s.cmdReadPermissions).held = s.held := by
  unfold State.cmdReadPermissions State.judged; dsimp only; (repeat' split) <;> simp
@[simp] theorem State.cmdReadPermissions_autoRequests (s : State) : (s.cmdReadPermissions).autoRequests = s.autoRequests := by
  unfold State.cmdReadPermissions State.judged; dsimp only; (repeat' split) <;> simp
@[simp] theorem State.cmdReadPermissions_ff (s : State) : (s.cmdReadPermissions).ff = s.ff := by
  unfold State.cmdReadPermissions State.judged; dsimp only; (repeat' split) <;> simp
@[simp] theorem State.cmdReadPermissions_exclusions (s : State) : (s.cmdReadPermissions).exclusions = s.exclusions := by
  unfold State.cmdReadPermissions State.judged; dsimp only; (repeat' split) <;> simp
@[simp] theorem State.cmdReadPermissions_perms (s : State) : (s.cmdReadPermissions).perms = s.perms := by
  unfold State.cmdReadPermissions State.judged; dsimp only; (repeat' split) <;> simp
@[simp] theorem State.cmdReadPermissions_startup (s : State) : (s.cmdReadPermissions).startup = s.startup := by
  unfold State.cmdReadPermissions State.judged; dsimp only; (repeat' split) <;> simp
@[simp] theorem State.cmdReadPermissions_publishAtOnce (s : State) : (s.cmdReadPermissions).publishAtOnce = s.publishAtOnce := by
  unfold State.cmdReadPermissions State.judged; dsimp only; (repeat' split) <;> simp
@[simp] theorem State.cmdReadPermissions_autoOrder (s : State) : (s.cmdReadPermissions).autoOrder = s.autoOrder := by
  unfold State.cmdReadPermissions State.judged; dsimp only; (repeat' split) <;> simp
@[simp] theorem State.cmdReadPermissions_pending (s : State) : (s.cmdReadPermissions).pending = s.pending := by
  unfold State.cmdReadPermissions State.judged; dsimp only; (repeat' split) <;> simp
@[simp] theorem State.cmdReadPermissions_bench_assembly (s : State) : (s.cmdReadPermissions).bench.assembly = s.bench.assembly := by
  unfold State.cmdReadPermissions State.judged; dsimp only; (repeat' split) <;> simp
@[simp] theorem State.cmdReadPermissions_bench_window (s : State) : (s.cmdReadPermissions).bench.window = s.bench.window := by
  unfold State.cmdReadPermissions State.judged; dsimp only; (repeat' split) <;> simp
@[simp] theorem State.cmdReadPermissions_bench_order (s : State) : (s.cmdReadPermissions).bench.order = s.bench.order := by
  unfold State.cmdReadPermissions State.judged; dsimp only; (repeat' split) <;> simp
@[simp] theorem State.cmdReadPermissions_bench_pointer (s : State) : (s.cmdReadPermissions).bench.pointer = s.bench.pointer := by
  unfold State.cmdReadPermissions State.judged; dsimp only; (repeat' split) <;> simp
@[simp] theorem State.cmdReadPermissions_bench_enables (s : State) : (s.cmdReadPermissions).bench.enables = s.bench.enables := by
  unfold State.cmdReadPermissions State.judged; dsimp only; (repeat' split) <;> simp
@[simp] theorem State.cmdReadPermissions_bench_selected (s : State) : (s.cmdReadPermissions).bench.selected = s.bench.selected := by
  unfold State.cmdReadPermissions State.judged; dsimp only; (repeat' split) <;> simp
@[simp] theorem State.cmdReadPermissions_bench_out (s : State) : (s.cmdReadPermissions).bench.out = s.bench.out := by
  unfold State.cmdReadPermissions State.judged; dsimp only; (repeat' split) <;> simp
@[simp] theorem State.cmdReadPermissions_runs_queue (s : State) : (s.cmdReadPermissions).runs.queue = s.runs.queue := by
  unfold State.cmdReadPermissions State.judged; dsimp only; (repeat' split) <;> simp
@[simp] theorem State.cmdReadPermissions_runs_active (s : State) : (s.cmdReadPermissions).runs.active = s.runs.active := by
  unfold State.cmdReadPermissions State.judged; dsimp only; (repeat' split) <;> simp
@[simp] theorem State.cmdReadPermissions_runs_serial (s : State) : (s.cmdReadPermissions).runs.serial = s.runs.serial := by
  unfold State.cmdReadPermissions State.judged; dsimp only; (repeat' split) <;> simp

/-! ### cmdReadCaptureCounts -/

@[simp] theorem State.cmdReadCaptureCounts_map (s : State) : (s.cmdReadCaptureCounts).map = s.map := by
  unfold State.cmdReadCaptureCounts State.judged; dsimp only; (repeat' split) <;> simp
@[simp] theorem State.cmdReadCaptureCounts_profiles (s : State) : (s.cmdReadCaptureCounts).profiles = s.profiles := by
  unfold State.cmdReadCaptureCounts State.judged; dsimp only; (repeat' split) <;> simp
@[simp] theorem State.cmdReadCaptureCounts_publishing (s : State) : (s.cmdReadCaptureCounts).publishing = s.publishing := by
  unfold State.cmdReadCaptureCounts State.judged; dsimp only; (repeat' split) <;> simp
@[simp] theorem State.cmdReadCaptureCounts_settings (s : State) : (s.cmdReadCaptureCounts).settings = s.settings := by
  unfold State.cmdReadCaptureCounts State.judged; dsimp only; (repeat' split) <;> simp
@[simp] theorem State.cmdReadCaptureCounts_sweep (s : State) : (s.cmdReadCaptureCounts).sweep = s.sweep := by
  unfold State.cmdReadCaptureCounts State.judged; dsimp only; (repeat' split) <;> simp
@[simp] theorem State.cmdReadCaptureCounts_capture (s : State) : (s.cmdReadCaptureCounts).capture = s.capture := by
  unfold State.cmdReadCaptureCounts State.judged; dsimp only; (repeat' split) <;> simp
@[simp] theorem State.cmdReadCaptureCounts_index (s : State) : (s.cmdReadCaptureCounts).index = s.index := by
  unfold State.cmdReadCaptureCounts State.judged; dsimp only; (repeat' split) <;> simp
@[simp] theorem State.cmdReadCaptureCounts_held (s : State) : (s.cmdReadCaptureCounts).held = s.held := by
  unfold State.cmdReadCaptureCounts State.judged; dsimp only; (repeat' split) <;> simp
@[simp] theorem State.cmdReadCaptureCounts_autoRequests (s : State) : (s.cmdReadCaptureCounts).autoRequests = s.autoRequests := by
  unfold State.cmdReadCaptureCounts State.judged; dsimp only; (repeat' split) <;> simp
@[simp] theorem State.cmdReadCaptureCounts_ff (s : State) : (s.cmdReadCaptureCounts).ff = s.ff := by
  unfold State.cmdReadCaptureCounts State.judged; dsimp only; (repeat' split) <;> simp
@[simp] theorem State.cmdReadCaptureCounts_exclusions (s : State) : (s.cmdReadCaptureCounts).exclusions = s.exclusions := by
  unfold State.cmdReadCaptureCounts State.judged; dsimp only; (repeat' split) <;> simp
@[simp] theorem State.cmdReadCaptureCounts_perms (s : State) : (s.cmdReadCaptureCounts).perms = s.perms := by
  unfold State.cmdReadCaptureCounts State.judged; dsimp only; (repeat' split) <;> simp
@[simp] theorem State.cmdReadCaptureCounts_startup (s : State) : (s.cmdReadCaptureCounts).startup = s.startup := by
  unfold State.cmdReadCaptureCounts State.judged; dsimp only; (repeat' split) <;> simp
@[simp] theorem State.cmdReadCaptureCounts_publishAtOnce (s : State) : (s.cmdReadCaptureCounts).publishAtOnce = s.publishAtOnce := by
  unfold State.cmdReadCaptureCounts State.judged; dsimp only; (repeat' split) <;> simp
@[simp] theorem State.cmdReadCaptureCounts_autoOrder (s : State) : (s.cmdReadCaptureCounts).autoOrder = s.autoOrder := by
  unfold State.cmdReadCaptureCounts State.judged; dsimp only; (repeat' split) <;> simp
@[simp] theorem State.cmdReadCaptureCounts_pending (s : State) : (s.cmdReadCaptureCounts).pending = s.pending := by
  unfold State.cmdReadCaptureCounts State.judged; dsimp only; (repeat' split) <;> simp
@[simp] theorem State.cmdReadCaptureCounts_bench_assembly (s : State) : (s.cmdReadCaptureCounts).bench.assembly = s.bench.assembly := by
  unfold State.cmdReadCaptureCounts State.judged; dsimp only; (repeat' split) <;> simp
@[simp] theorem State.cmdReadCaptureCounts_bench_window (s : State) : (s.cmdReadCaptureCounts).bench.window = s.bench.window := by
  unfold State.cmdReadCaptureCounts State.judged; dsimp only; (repeat' split) <;> simp
@[simp] theorem State.cmdReadCaptureCounts_bench_order (s : State) : (s.cmdReadCaptureCounts).bench.order = s.bench.order := by
  unfold State.cmdReadCaptureCounts State.judged; dsimp only; (repeat' split) <;> simp
@[simp] theorem State.cmdReadCaptureCounts_bench_pointer (s : State) : (s.cmdReadCaptureCounts).bench.pointer = s.bench.pointer := by
  unfold State.cmdReadCaptureCounts State.judged; dsimp only; (repeat' split) <;> simp
@[simp] theorem State.cmdReadCaptureCounts_bench_enables (s : State) : (s.cmdReadCaptureCounts).bench.enables = s.bench.enables := by
  unfold State.cmdReadCaptureCounts State.judged; dsimp only; (repeat' split) <;> simp
@[simp] theorem State.cmdReadCaptureCounts_bench_selected (s : State) : (s.cmdReadCaptureCounts).bench.selected = s.bench.selected := by
  unfold State.cmdReadCaptureCounts State.judged; dsimp only; (repeat' split) <;> simp
@[simp] theorem State.cmdReadCaptureCounts_bench_out (s : State) : (s.cmdReadCaptureCounts).bench.out = s.bench.out := by
  unfold State.cmdReadCaptureCounts State.judged; dsimp only; (repeat' split) <;> simp
@[simp] theorem State.cmdReadCaptureCounts_runs_queue (s : State) : (s.cmdReadCaptureCounts).runs.queue = s.runs.queue := by
  unfold State.cmdReadCaptureCounts State.judged; dsimp only; (repeat' split) <;> simp
@[simp] theorem State.cmdReadCaptureCounts_runs_active (s : State) : (s.cmdReadCaptureCounts).runs.active = s.runs.active := by
  unfold State.cmdReadCaptureCounts State.judged; dsimp only; (repeat' split) <;> simp
@[simp] theorem State.cmdReadCaptureCounts_runs_serial (s : State) : (s.cmdReadCaptureCounts).runs.serial = s.runs.serial := by
  unfold State.cmdReadCaptureCounts State.judged; dsimp only; (repeat' split) <;> simp

/-! ### cmdReadIdentity -/

@[simp] theorem State.cmdReadIdentity_map (s : State) : (s.cmdReadIdentity).map = s.map := by
  unfold State.cmdReadIdentity State.judged; dsimp only; (repeat' split) <;> simp
@[simp] theorem State.cmdReadIdentity_profiles (s : State) : (s.cmdReadIdentity).profiles = s.profiles := by
  unfold State.cmdReadIdentity State.judged; dsimp only; (repeat' split) <;> simp
@[simp] theorem State.cmdReadIdentity_publishing (s : State) : (s.cmdReadIdentity).publishing = s.publishing := by
  unfold State.cmdReadIdentity State.judged; dsimp only; (repeat' split) <;> simp
@[simp] theorem State.cmdReadIdentity_settings (s : State) : (s.cmdReadIdentity).settings = s.settings := by
  unfold State.cmdReadIdentity State.judged; dsimp only; (repeat' split) <;> simp
@[simp] theorem State.cmdReadIdentity_sweep (s : State) : (s.cmdReadIdentity).sweep = s.sweep := by
  unfold State.cmdReadIdentity State.judged; dsimp only; (repeat' split) <;> simp
@[simp] theorem State.cmdReadIdentity_capture (s : State) : (s.cmdReadIdentity).capture = s.capture := by
  unfold State.cmdReadIdentity State.judged; dsimp only; (repeat' split) <;> simp
@[simp] theorem State.cmdReadIdentity_index (s : State) : (s.cmdReadIdentity).index = s.index := by
  unfold State.cmdReadIdentity State.judged; dsimp only; (repeat' split) <;> simp
@[simp] theorem State.cmdReadIdentity_held (s : State) : (s.cmdReadIdentity).held = s.held := by
  unfold State.cmdReadIdentity State.judged; dsimp only; (repeat' split) <;> simp
@[simp] theorem State.cmdReadIdentity_autoRequests (s : State) : (s.cmdReadIdentity).autoRequests = s.autoRequests := by
  unfold State.cmdReadIdentity State.judged; dsimp only; (repeat' split) <;> simp
@[simp] theorem State.cmdReadIdentity_ff (s : State) : (s.cmdReadIdentity).ff = s.ff := by
  unfold State.cmdReadIdentity State.judged; dsimp only; (repeat' split) <;> simp
@[simp] theorem State.cmdReadIdentity_exclusions (s : State) : (s.cmdReadIdentity).exclusions = s.exclusions := by
  unfold State.cmdReadIdentity State.judged; dsimp only; (repeat' split) <;> simp
@[simp] theorem State.cmdReadIdentity_perms (s : State) : (s.cmdReadIdentity).perms = s.perms := by
  unfold State.cmdReadIdentity State.judged; dsimp only; (repeat' split) <;> simp
@[simp] theorem State.cmdReadIdentity_startup (s : State) : (s.cmdReadIdentity).startup = s.startup := by
  unfold State.cmdReadIdentity State.judged; dsimp only; (repeat' split) <;> simp
@[simp] theorem State.cmdReadIdentity_publishAtOnce (s : State) : (s.cmdReadIdentity).publishAtOnce = s.publishAtOnce := by
  unfold State.cmdReadIdentity State.judged; dsimp only; (repeat' split) <;> simp
@[simp] theorem State.cmdReadIdentity_autoOrder (s : State) : (s.cmdReadIdentity).autoOrder = s.autoOrder := by
  unfold State.cmdReadIdentity State.judged; dsimp only; (repeat' split) <;> simp
@[simp] theorem State.cmdReadIdentity_pending (s : State) : (s.cmdReadIdentity).pending = s.pending := by
  unfold State.cmdReadIdentity State.judged; dsimp only; (repeat' split) <;> simp
@[simp] theorem State.cmdReadIdentity_bench_assembly (s : State) : (s.cmdReadIdentity).bench.assembly = s.bench.assembly := by
  unfold State.cmdReadIdentity State.judged; dsimp only; (repeat' split) <;> simp
@[simp] theorem State.cmdReadIdentity_bench_window (s : State) : (s.cmdReadIdentity).bench.window = s.bench.window := by
  unfold State.cmdReadIdentity State.judged; dsimp only; (repeat' split) <;> simp
@[simp] theorem State.cmdReadIdentity_bench_order (s : State) : (s.cmdReadIdentity).bench.order = s.bench.order := by
  unfold State.cmdReadIdentity State.judged; dsimp only; (repeat' split) <;> simp
@[simp] theorem State.cmdReadIdentity_bench_pointer (s : State) : (s.cmdReadIdentity).bench.pointer = s.bench.pointer := by
  unfold State.cmdReadIdentity State.judged; dsimp only; (repeat' split) <;> simp
@[simp] theorem State.cmdReadIdentity_bench_enables (s : State) : (s.cmdReadIdentity).bench.enables = s.bench.enables := by
  unfold State.cmdReadIdentity State.judged; dsimp only; (repeat' split) <;> simp
@[simp] theorem State.cmdReadIdentity_bench_selected (s : State) : (s.cmdReadIdentity).bench.selected = s.bench.selected := by
  unfold State.cmdReadIdentity State.judged; dsimp only; (repeat' split) <;> simp
@[simp] theorem State.cmdReadIdentity_bench_out (s : State) : (s.cmdReadIdentity).bench.out = s.bench.out := by
  unfold State.cmdReadIdentity State.judged; dsimp only; (repeat' split) <;> simp
@[simp] theorem State.cmdReadIdentity_runs_queue (s : State) : (s.cmdReadIdentity).runs.queue = s.runs.queue := by
  unfold State.cmdReadIdentity State.judged; dsimp only; (repeat' split) <;> simp
@[simp] theorem State.cmdReadIdentity_runs_active (s : State) : (s.cmdReadIdentity).runs.active = s.runs.active := by
  unfold State.cmdReadIdentity State.judged; dsimp only; (repeat' split) <;> simp
@[simp] theorem State.cmdReadIdentity_runs_serial (s : State) : (s.cmdReadIdentity).runs.serial = s.runs.serial := by
  unfold State.cmdReadIdentity State.judged; dsimp only; (repeat' split) <;> simp

/-! ### cmdReadSettings -/

@[simp] theorem State.cmdReadSettings_map (s : State) : (s.cmdReadSettings).map = s.map := by
  unfold State.cmdReadSettings State.judged; dsimp only; (repeat' split) <;> simp
@[simp] theorem State.cmdReadSettings_profiles (s : State) : (s.cmdReadSettings).profiles = s.profiles := by
  unfold State.cmdReadSettings State.judged; dsimp only; (repeat' split) <;> simp
@[simp] theorem State.cmdReadSettings_publishing (s : State) : (s.cmdReadSettings).publishing = s.publishing := by
  unfold State.cmdReadSettings State.judged; dsimp only; (repeat' split) <;> simp
@[simp] theorem State.cmdReadSettings_settings (s : State) : (s.cmdReadSettings).settings = s.settings := by
  unfold State.cmdReadSettings State.judged; dsimp only; (repeat' split) <;> simp
@[simp] theorem State.cmdReadSettings_sweep (s : State) : (s.cmdReadSettings).sweep = s.sweep := by
  unfold State.cmdReadSettings State.judged; dsimp only; (repeat' split) <;> simp
@[simp] theorem State.cmdReadSettings_capture (s : State) : (s.cmdReadSettings).capture = s.capture := by
  unfold State.cmdReadSettings State.judged; dsimp only; (repeat' split) <;> simp
@[simp] theorem State.cmdReadSettings_index (s : State) : (s.cmdReadSettings).index = s.index := by
  unfold State.cmdReadSettings State.judged; dsimp only; (repeat' split) <;> simp
@[simp] theorem State.cmdReadSettings_held (s : State) : (s.cmdReadSettings).held = s.held := by
  unfold State.cmdReadSettings State.judged; dsimp only; (repeat' split) <;> simp
@[simp] theorem State.cmdReadSettings_autoRequests (s : State) : (s.cmdReadSettings).autoRequests = s.autoRequests := by
  unfold State.cmdReadSettings State.judged; dsimp only; (repeat' split) <;> simp
@[simp] theorem State.cmdReadSettings_ff (s : State) : (s.cmdReadSettings).ff = s.ff := by
  unfold State.cmdReadSettings State.judged; dsimp only; (repeat' split) <;> simp
@[simp] theorem State.cmdReadSettings_exclusions (s : State) : (s.cmdReadSettings).exclusions = s.exclusions := by
  unfold State.cmdReadSettings State.judged; dsimp only; (repeat' split) <;> simp
@[simp] theorem State.cmdReadSettings_perms (s : State) : (s.cmdReadSettings).perms = s.perms := by
  unfold State.cmdReadSettings State.judged; dsimp only; (repeat' split) <;> simp
@[simp] theorem State.cmdReadSettings_startup (s : State) : (s.cmdReadSettings).startup = s.startup := by
  unfold State.cmdReadSettings State.judged; dsimp only; (repeat' split) <;> simp
@[simp] theorem State.cmdReadSettings_publishAtOnce (s : State) : (s.cmdReadSettings).publishAtOnce = s.publishAtOnce := by
  unfold State.cmdReadSettings State.judged; dsimp only; (repeat' split) <;> simp
@[simp] theorem State.cmdReadSettings_autoOrder (s : State) : (s.cmdReadSettings).autoOrder = s.autoOrder := by
  unfold State.cmdReadSettings State.judged; dsimp only; (repeat' split) <;> simp
@[simp] theorem State.cmdReadSettings_pending (s : State) : (s.cmdReadSettings).pending = s.pending := by
  unfold State.cmdReadSettings State.judged; dsimp only; (repeat' split) <;> simp
@[simp] theorem State.cmdReadSettings_bench_assembly (s : State) : (s.cmdReadSettings).bench.assembly = s.bench.assembly := by
  unfold State.cmdReadSettings State.judged; dsimp only; (repeat' split) <;> simp
@[simp] theorem State.cmdReadSettings_bench_window (s : State) : (s.cmdReadSettings).bench.window = s.bench.window := by
  unfold State.cmdReadSettings State.judged; dsimp only; (repeat' split) <;> simp
@[simp] theorem State.cmdReadSettings_bench_order (s : State) : (s.cmdReadSettings).bench.order = s.bench.order := by
  unfold State.cmdReadSettings State.judged; dsimp only; (repeat' split) <;> simp
@[simp] theorem State.cmdReadSettings_bench_pointer (s : State) : (s.cmdReadSettings).bench.pointer = s.bench.pointer := by
  unfold State.cmdReadSettings State.judged; dsimp only; (repeat' split) <;> simp
@[simp] theorem State.cmdReadSettings_bench_enables (s : State) : (s.cmdReadSettings).bench.enables = s.bench.enables := by
  unfold State.cmdReadSettings State.judged; dsimp only; (repeat' split) <;> simp
@[simp] theorem State.cmdReadSettings_bench_selected (s : State) : (s.cmdReadSettings).bench.selected = s.bench.selected := by
  unfold State.cmdReadSettings State.judged; dsimp only; (repeat' split) <;> simp
@[simp] theorem State.cmdReadSettings_bench_out (s : State) : (s.cmdReadSettings).bench.out = s.bench.out := by
  unfold State.cmdReadSettings State.judged; dsimp only; (repeat' split) <;> simp
@[simp] theorem State.cmdReadSettings_runs_queue (s : State) : (s.cmdReadSettings).runs.queue = s.runs.queue := by
  unfold State.cmdReadSettings State.judged; dsimp only; (repeat' split) <;> simp
@[simp] theorem State.cmdReadSettings_runs_active (s : State) : (s.cmdReadSettings).runs.active = s.runs.active := by
  unfold State.cmdReadSettings State.judged; dsimp only; (repeat' split) <;> simp
@[simp] theorem State.cmdReadSettings_runs_serial (s : State) : (s.cmdReadSettings).runs.serial = s.runs.serial := by
  unfold State.cmdReadSettings State.judged; dsimp only; (repeat' split) <;> simp

/-! ### cmdReadMonitor -/

@[simp] theorem State.cmdReadMonitor_map (s : State) (h : Word) : (s.cmdReadMonitor h).map = s.map := by
  unfold State.cmdReadMonitor State.judged; dsimp only; (repeat' split) <;> simp
@[simp] theorem State.cmdReadMonitor_profiles (s : State) (h : Word) : (s.cmdReadMonitor h).profiles = s.profiles := by
  unfold State.cmdReadMonitor State.judged; dsimp only; (repeat' split) <;> simp
@[simp] theorem State.cmdReadMonitor_publishing (s : State) (h : Word) : (s.cmdReadMonitor h).publishing = s.publishing := by
  unfold State.cmdReadMonitor State.judged; dsimp only; (repeat' split) <;> simp
@[simp] theorem State.cmdReadMonitor_settings (s : State) (h : Word) : (s.cmdReadMonitor h).settings = s.settings := by
  unfold State.cmdReadMonitor State.judged; dsimp only; (repeat' split) <;> simp
@[simp] theorem State.cmdReadMonitor_sweep (s : State) (h : Word) : (s.cmdReadMonitor h).sweep = s.sweep := by
  unfold State.cmdReadMonitor State.judged; dsimp only; (repeat' split) <;> simp
@[simp] theorem State.cmdReadMonitor_capture (s : State) (h : Word) : (s.cmdReadMonitor h).capture = s.capture := by
  unfold State.cmdReadMonitor State.judged; dsimp only; (repeat' split) <;> simp
@[simp] theorem State.cmdReadMonitor_index (s : State) (h : Word) : (s.cmdReadMonitor h).index = s.index := by
  unfold State.cmdReadMonitor State.judged; dsimp only; (repeat' split) <;> simp
@[simp] theorem State.cmdReadMonitor_held (s : State) (h : Word) : (s.cmdReadMonitor h).held = s.held := by
  unfold State.cmdReadMonitor State.judged; dsimp only; (repeat' split) <;> simp
@[simp] theorem State.cmdReadMonitor_autoRequests (s : State) (h : Word) : (s.cmdReadMonitor h).autoRequests = s.autoRequests := by
  unfold State.cmdReadMonitor State.judged; dsimp only; (repeat' split) <;> simp
@[simp] theorem State.cmdReadMonitor_ff (s : State) (h : Word) : (s.cmdReadMonitor h).ff = s.ff := by
  unfold State.cmdReadMonitor State.judged; dsimp only; (repeat' split) <;> simp
@[simp] theorem State.cmdReadMonitor_exclusions (s : State) (h : Word) : (s.cmdReadMonitor h).exclusions = s.exclusions := by
  unfold State.cmdReadMonitor State.judged; dsimp only; (repeat' split) <;> simp
@[simp] theorem State.cmdReadMonitor_perms (s : State) (h : Word) : (s.cmdReadMonitor h).perms = s.perms := by
  unfold State.cmdReadMonitor State.judged; dsimp only; (repeat' split) <;> simp
@[simp] theorem State.cmdReadMonitor_startup (s : State) (h : Word) : (s.cmdReadMonitor h).startup = s.startup := by
  unfold State.cmdReadMonitor State.judged; dsimp only; (repeat' split) <;> simp
@[simp] theorem State.cmdReadMonitor_publishAtOnce (s : State) (h : Word) : (s.cmdReadMonitor h).publishAtOnce = s.publishAtOnce := by
  unfold State.cmdReadMonitor State.judged; dsimp only; (repeat' split) <;> simp
@[simp] theorem State.cmdReadMonitor_autoOrder (s : State) (h : Word) : (s.cmdReadMonitor h).autoOrder = s.autoOrder := by
  unfold State.cmdReadMonitor State.judged; dsimp only; (repeat' split) <;> simp
@[simp] theorem State.cmdReadMonitor_pending (s : State) (h : Word) : (s.cmdReadMonitor h).pending = s.pending := by
  unfold State.cmdReadMonitor State.judged; dsimp only; (repeat' split) <;> simp
@[simp] theorem State.cmdReadMonitor_bench_assembly (s : State) (h : Word) : (s.cmdReadMonitor h).bench.assembly = s.bench.assembly := by
  unfold State.cmdReadMonitor State.judged; dsimp only; (repeat' split) <;> simp
@[simp] theorem State.cmdReadMonitor_bench_window (s : State) (h : Word) : (s.cmdReadMonitor h).bench.window = s.bench.window := by
  unfold State.cmdReadMonitor State.judged; dsimp only; (repeat' split) <;> simp
@[simp] theorem State.cmdReadMonitor_bench_order (s : State) (h : Word) : (s.cmdReadMonitor h).bench.order = s.bench.order := by
  unfold State.cmdReadMonitor State.judged; dsimp only; (repeat' split) <;> simp
@[simp] theorem State.cmdReadMonitor_bench_pointer (s : State) (h : Word) : (s.cmdReadMonitor h).bench.pointer = s.bench.pointer := by
  unfold State.cmdReadMonitor State.judged; dsimp only; (repeat' split) <;> simp
@[simp] theorem State.cmdReadMonitor_bench_enables (s : State) (h : Word) : (s.cmdReadMonitor h).bench.enables = s.bench.enables := by
  unfold State.cmdReadMonitor State.judged; dsimp only; (repeat' split) <;> simp
@[simp] theorem State.cmdReadMonitor_bench_selected (s : State) (h : Word) : (s.cmdReadMonitor h).bench.selected = s.bench.selected := by
  unfold State.cmdReadMonitor State.judged; dsimp only; (repeat' split) <;> simp
@[simp] theorem State.cmdReadMonitor_bench_out (s : State) (h : Word) : (s.cmdReadMonitor h).bench.out = s.bench.out := by
  unfold State.cmdReadMonitor State.judged; dsimp only; (repeat' split) <;> simp
@[simp] theorem State.cmdReadMonitor_runs_queue (s : State) (h : Word) : (s.cmdReadMonitor h).runs.queue = s.runs.queue := by
  unfold State.cmdReadMonitor State.judged; dsimp only; (repeat' split) <;> simp
@[simp] theorem State.cmdReadMonitor_runs_active (s : State) (h : Word) : (s.cmdReadMonitor h).runs.active = s.runs.active := by
  unfold State.cmdReadMonitor State.judged; dsimp only; (repeat' split) <;> simp
@[simp] theorem State.cmdReadMonitor_runs_serial (s : State) (h : Word) : (s.cmdReadMonitor h).runs.serial = s.runs.serial := by
  unfold State.cmdReadMonitor State.judged; dsimp only; (repeat' split) <;> simp

/-! ### cmdSetSetting -/

@[simp] theorem State.cmdSetSetting_map (s : State) (a b : Word) : (s.cmdSetSetting a b).map = s.map := by
  unfold State.cmdSetSetting State.judged; dsimp only; (repeat' split) <;> simp
@[simp] theorem State.cmdSetSetting_profiles (s : State) (a b : Word) : (s.cmdSetSetting a b).profiles = s.profiles := by
  unfold State.cmdSetSetting State.judged; dsimp only; (repeat' split) <;> simp
@[simp] theorem State.cmdSetSetting_publishing (s : State) (a b : Word) : (s.cmdSetSetting a b).publishing = s.publishing := by
  unfold State.cmdSetSetting State.judged; dsimp only; (repeat' split) <;> simp
@[simp] theorem State.cmdSetSetting_sweep (s : State) (a b : Word) : (s.cmdSetSetting a b).sweep = s.sweep := by
  unfold State.cmdSetSetting State.judged; dsimp only; (repeat' split) <;> simp
@[simp] theorem State.cmdSetSetting_capture (s : State) (a b : Word) : (s.cmdSetSetting a b).capture = s.capture := by
  unfold State.cmdSetSetting State.judged; dsimp only; (repeat' split) <;> simp
@[simp] theorem State.cmdSetSetting_index (s : State) (a b : Word) : (s.cmdSetSetting a b).index = s.index := by
  unfold State.cmdSetSetting State.judged; dsimp only; (repeat' split) <;> simp
@[simp] theorem State.cmdSetSetting_held (s : State) (a b : Word) : (s.cmdSetSetting a b).held = s.held := by
  unfold State.cmdSetSetting State.judged; dsimp only; (repeat' split) <;> simp
@[simp] theorem State.cmdSetSetting_autoRequests (s : State) (a b : Word) : (s.cmdSetSetting a b).autoRequests = s.autoRequests := by
  unfold State.cmdSetSetting State.judged; dsimp only; (repeat' split) <;> simp
@[simp] theorem State.cmdSetSetting_runs (s : State) (a b : Word) : (s.cmdSetSetting a b).runs = s.runs := by
  unfold State.cmdSetSetting State.judged; dsimp only; (repeat' split) <;> simp
@[simp] theorem State.cmdSetSetting_ff (s : State) (a b : Word) : (s.cmdSetSetting a b).ff = s.ff := by
  unfold State.cmdSetSetting State.judged; dsimp only; (repeat' split) <;> simp
@[simp] theorem State.cmdSetSetting_exclusions (s : State) (a b : Word) : (s.cmdSetSetting a b).exclusions = s.exclusions := by
  unfold State.cmdSetSetting State.judged; dsimp only; (repeat' split) <;> simp
@[simp] theorem State.cmdSetSetting_perms (s : State) (a b : Word) : (s.cmdSetSetting a b).perms = s.perms := by
  unfold State.cmdSetSetting State.judged; dsimp only; (repeat' split) <;> simp
@[simp] theorem State.cmdSetSetting_startup (s : State) (a b : Word) : (s.cmdSetSetting a b).startup = s.startup := by
  unfold State.cmdSetSetting State.judged; dsimp only; (repeat' split) <;> simp
@[simp] theorem State.cmdSetSetting_publishAtOnce (s : State) (a b : Word) : (s.cmdSetSetting a b).publishAtOnce = s.publishAtOnce := by
  unfold State.cmdSetSetting State.judged; dsimp only; (repeat' split) <;> simp
@[simp] theorem State.cmdSetSetting_autoOrder (s : State) (a b : Word) : (s.cmdSetSetting a b).autoOrder = s.autoOrder := by
  unfold State.cmdSetSetting State.judged; dsimp only; (repeat' split) <;> simp
@[simp] theorem State.cmdSetSetting_pending (s : State) (a b : Word) : (s.cmdSetSetting a b).pending = s.pending := by
  unfold State.cmdSetSetting State.judged; dsimp only; (repeat' split) <;> simp
@[simp] theorem State.cmdSetSetting_bench_assembly (s : State) (a b : Word) : (s.cmdSetSetting a b).bench.assembly = s.bench.assembly := by
  unfold State.cmdSetSetting State.judged; dsimp only; (repeat' split) <;> simp
@[simp] theorem State.cmdSetSetting_bench_returnQueue (s : State) (a b : Word) : (s.cmdSetSetting a b).bench.returnQueue = s.bench.returnQueue := by
  unfold State.cmdSetSetting State.judged; dsimp only; (repeat' split) <;> simp
@[simp] theorem State.cmdSetSetting_bench_window (s : State) (a b : Word) : (s.cmdSetSetting a b).bench.window = s.bench.window := by
  unfold State.cmdSetSetting State.judged; dsimp only; (repeat' split) <;> simp
@[simp] theorem State.cmdSetSetting_bench_order (s : State) (a b : Word) : (s.cmdSetSetting a b).bench.order = s.bench.order := by
  unfold State.cmdSetSetting State.judged; dsimp only; (repeat' split) <;> simp
@[simp] theorem State.cmdSetSetting_bench_pointer (s : State) (a b : Word) : (s.cmdSetSetting a b).bench.pointer = s.bench.pointer := by
  unfold State.cmdSetSetting State.judged; dsimp only; (repeat' split) <;> simp
@[simp] theorem State.cmdSetSetting_bench_stream (s : State) (a b : Word) : (s.cmdSetSetting a b).bench.stream = s.bench.stream := by
  unfold State.cmdSetSetting State.judged; dsimp only; (repeat' split) <;> simp
@[simp] theorem State.cmdSetSetting_bench_enables (s : State) (a b : Word) : (s.cmdSetSetting a b).bench.enables = s.bench.enables := by
  unfold State.cmdSetSetting State.judged; dsimp only; (repeat' split) <;> simp
@[simp] theorem State.cmdSetSetting_bench_selected (s : State) (a b : Word) : (s.cmdSetSetting a b).bench.selected = s.bench.selected := by
  unfold State.cmdSetSetting State.judged; dsimp only; (repeat' split) <;> simp
@[simp] theorem State.cmdSetSetting_bench_out (s : State) (a b : Word) : (s.cmdSetSetting a b).bench.out = s.bench.out := by
  unfold State.cmdSetSetting State.judged; dsimp only; (repeat' split) <;> simp

/-! ### cmdSetHeadGain -/

@[simp] theorem State.cmdSetHeadGain_map (s : State) (a b : Word) : (s.cmdSetHeadGain a b).map = s.map := by
  unfold State.cmdSetHeadGain State.judged; dsimp only; (repeat' split) <;> simp
@[simp] theorem State.cmdSetHeadGain_publishing (s : State) (a b : Word) : (s.cmdSetHeadGain a b).publishing = s.publishing := by
  unfold State.cmdSetHeadGain State.judged; dsimp only; (repeat' split) <;> simp
@[simp] theorem State.cmdSetHeadGain_settings (s : State) (a b : Word) : (s.cmdSetHeadGain a b).settings = s.settings := by
  unfold State.cmdSetHeadGain State.judged; dsimp only; (repeat' split) <;> simp
@[simp] theorem State.cmdSetHeadGain_sweep (s : State) (a b : Word) : (s.cmdSetHeadGain a b).sweep = s.sweep := by
  unfold State.cmdSetHeadGain State.judged; dsimp only; (repeat' split) <;> simp
@[simp] theorem State.cmdSetHeadGain_capture (s : State) (a b : Word) : (s.cmdSetHeadGain a b).capture = s.capture := by
  unfold State.cmdSetHeadGain State.judged; dsimp only; (repeat' split) <;> simp
@[simp] theorem State.cmdSetHeadGain_index (s : State) (a b : Word) : (s.cmdSetHeadGain a b).index = s.index := by
  unfold State.cmdSetHeadGain State.judged; dsimp only; (repeat' split) <;> simp
@[simp] theorem State.cmdSetHeadGain_held (s : State) (a b : Word) : (s.cmdSetHeadGain a b).held = s.held := by
  unfold State.cmdSetHeadGain State.judged; dsimp only; (repeat' split) <;> simp
@[simp] theorem State.cmdSetHeadGain_autoRequests (s : State) (a b : Word) : (s.cmdSetHeadGain a b).autoRequests = s.autoRequests := by
  unfold State.cmdSetHeadGain State.judged; dsimp only; (repeat' split) <;> simp
@[simp] theorem State.cmdSetHeadGain_runs (s : State) (a b : Word) : (s.cmdSetHeadGain a b).runs = s.runs := by
  unfold State.cmdSetHeadGain State.judged; dsimp only; (repeat' split) <;> simp
@[simp] theorem State.cmdSetHeadGain_ff (s : State) (a b : Word) : (s.cmdSetHeadGain a b).ff = s.ff := by
  unfold State.cmdSetHeadGain State.judged; dsimp only; (repeat' split) <;> simp
@[simp] theorem State.cmdSetHeadGain_exclusions (s : State) (a b : Word) : (s.cmdSetHeadGain a b).exclusions = s.exclusions := by
  unfold State.cmdSetHeadGain State.judged; dsimp only; (repeat' split) <;> simp
@[simp] theorem State.cmdSetHeadGain_perms (s : State) (a b : Word) : (s.cmdSetHeadGain a b).perms = s.perms := by
  unfold State.cmdSetHeadGain State.judged; dsimp only; (repeat' split) <;> simp
@[simp] theorem State.cmdSetHeadGain_startup (s : State) (a b : Word) : (s.cmdSetHeadGain a b).startup = s.startup := by
  unfold State.cmdSetHeadGain State.judged; dsimp only; (repeat' split) <;> simp
@[simp] theorem State.cmdSetHeadGain_publishAtOnce (s : State) (a b : Word) : (s.cmdSetHeadGain a b).publishAtOnce = s.publishAtOnce := by
  unfold State.cmdSetHeadGain State.judged; dsimp only; (repeat' split) <;> simp
@[simp] theorem State.cmdSetHeadGain_autoOrder (s : State) (a b : Word) : (s.cmdSetHeadGain a b).autoOrder = s.autoOrder := by
  unfold State.cmdSetHeadGain State.judged; dsimp only; (repeat' split) <;> simp
@[simp] theorem State.cmdSetHeadGain_pending (s : State) (a b : Word) : (s.cmdSetHeadGain a b).pending = s.pending := by
  unfold State.cmdSetHeadGain State.judged; dsimp only; (repeat' split) <;> simp
@[simp] theorem State.cmdSetHeadGain_bench_assembly (s : State) (a b : Word) : (s.cmdSetHeadGain a b).bench.assembly = s.bench.assembly := by
  unfold State.cmdSetHeadGain State.judged; dsimp only; (repeat' split) <;> simp
@[simp] theorem State.cmdSetHeadGain_bench_returnQueue (s : State) (a b : Word) : (s.cmdSetHeadGain a b).bench.returnQueue = s.bench.returnQueue := by
  unfold State.cmdSetHeadGain State.judged; dsimp only; (repeat' split) <;> simp
@[simp] theorem State.cmdSetHeadGain_bench_window (s : State) (a b : Word) : (s.cmdSetHeadGain a b).bench.window = s.bench.window := by
  unfold State.cmdSetHeadGain State.judged; dsimp only; (repeat' split) <;> simp
@[simp] theorem State.cmdSetHeadGain_bench_order (s : State) (a b : Word) : (s.cmdSetHeadGain a b).bench.order = s.bench.order := by
  unfold State.cmdSetHeadGain State.judged; dsimp only; (repeat' split) <;> simp
@[simp] theorem State.cmdSetHeadGain_bench_pointer (s : State) (a b : Word) : (s.cmdSetHeadGain a b).bench.pointer = s.bench.pointer := by
  unfold State.cmdSetHeadGain State.judged; dsimp only; (repeat' split) <;> simp
@[simp] theorem State.cmdSetHeadGain_bench_stream (s : State) (a b : Word) : (s.cmdSetHeadGain a b).bench.stream = s.bench.stream := by
  unfold State.cmdSetHeadGain State.judged; dsimp only; (repeat' split) <;> simp
@[simp] theorem State.cmdSetHeadGain_bench_enables (s : State) (a b : Word) : (s.cmdSetHeadGain a b).bench.enables = s.bench.enables := by
  unfold State.cmdSetHeadGain State.judged; dsimp only; (repeat' split) <;> simp
@[simp] theorem State.cmdSetHeadGain_bench_selected (s : State) (a b : Word) : (s.cmdSetHeadGain a b).bench.selected = s.bench.selected := by
  unfold State.cmdSetHeadGain State.judged; dsimp only; (repeat' split) <;> simp
@[simp] theorem State.cmdSetHeadGain_bench_out (s : State) (a b : Word) : (s.cmdSetHeadGain a b).bench.out = s.bench.out := by
  unfold State.cmdSetHeadGain State.judged; dsimp only; (repeat' split) <;> simp

/-! ### cmdSetHeadOptions -/

@[simp] theorem State.cmdSetHeadOptions_map (s : State) (a b c d : Word) : (s.cmdSetHeadOptions a b c d).map = s.map := by
  unfold State.cmdSetHeadOptions State.judged; dsimp only; (repeat' split) <;> simp
@[simp] theorem State.cmdSetHeadOptions_publishing (s : State) (a b c d : Word) : (s.cmdSetHeadOptions a b c d).publishing = s.publishing := by
  unfold State.cmdSetHeadOptions State.judged; dsimp only; (repeat' split) <;> simp
@[simp] theorem State.cmdSetHeadOptions_settings (s : State) (a b c d : Word) : (s.cmdSetHeadOptions a b c d).settings = s.settings := by
  unfold State.cmdSetHeadOptions State.judged; dsimp only; (repeat' split) <;> simp
@[simp] theorem State.cmdSetHeadOptions_sweep (s : State) (a b c d : Word) : (s.cmdSetHeadOptions a b c d).sweep = s.sweep := by
  unfold State.cmdSetHeadOptions State.judged; dsimp only; (repeat' split) <;> simp
@[simp] theorem State.cmdSetHeadOptions_capture (s : State) (a b c d : Word) : (s.cmdSetHeadOptions a b c d).capture = s.capture := by
  unfold State.cmdSetHeadOptions State.judged; dsimp only; (repeat' split) <;> simp
@[simp] theorem State.cmdSetHeadOptions_index (s : State) (a b c d : Word) : (s.cmdSetHeadOptions a b c d).index = s.index := by
  unfold State.cmdSetHeadOptions State.judged; dsimp only; (repeat' split) <;> simp
@[simp] theorem State.cmdSetHeadOptions_held (s : State) (a b c d : Word) : (s.cmdSetHeadOptions a b c d).held = s.held := by
  unfold State.cmdSetHeadOptions State.judged; dsimp only; (repeat' split) <;> simp
@[simp] theorem State.cmdSetHeadOptions_autoRequests (s : State) (a b c d : Word) : (s.cmdSetHeadOptions a b c d).autoRequests = s.autoRequests := by
  unfold State.cmdSetHeadOptions State.judged; dsimp only; (repeat' split) <;> simp
@[simp] theorem State.cmdSetHeadOptions_runs (s : State) (a b c d : Word) : (s.cmdSetHeadOptions a b c d).runs = s.runs := by
  unfold State.cmdSetHeadOptions State.judged; dsimp only; (repeat' split) <;> simp
@[simp] theorem State.cmdSetHeadOptions_ff (s : State) (a b c d : Word) : (s.cmdSetHeadOptions a b c d).ff = s.ff := by
  unfold State.cmdSetHeadOptions State.judged; dsimp only; (repeat' split) <;> simp
@[simp] theorem State.cmdSetHeadOptions_exclusions (s : State) (a b c d : Word) : (s.cmdSetHeadOptions a b c d).exclusions = s.exclusions := by
  unfold State.cmdSetHeadOptions State.judged; dsimp only; (repeat' split) <;> simp
@[simp] theorem State.cmdSetHeadOptions_perms (s : State) (a b c d : Word) : (s.cmdSetHeadOptions a b c d).perms = s.perms := by
  unfold State.cmdSetHeadOptions State.judged; dsimp only; (repeat' split) <;> simp
@[simp] theorem State.cmdSetHeadOptions_startup (s : State) (a b c d : Word) : (s.cmdSetHeadOptions a b c d).startup = s.startup := by
  unfold State.cmdSetHeadOptions State.judged; dsimp only; (repeat' split) <;> simp
@[simp] theorem State.cmdSetHeadOptions_publishAtOnce (s : State) (a b c d : Word) : (s.cmdSetHeadOptions a b c d).publishAtOnce = s.publishAtOnce := by
  unfold State.cmdSetHeadOptions State.judged; dsimp only; (repeat' split) <;> simp
@[simp] theorem State.cmdSetHeadOptions_autoOrder (s : State) (a b c d : Word) : (s.cmdSetHeadOptions a b c d).autoOrder = s.autoOrder := by
  unfold State.cmdSetHeadOptions State.judged; dsimp only; (repeat' split) <;> simp
@[simp] theorem State.cmdSetHeadOptions_pending (s : State) (a b c d : Word) : (s.cmdSetHeadOptions a b c d).pending = s.pending := by
  unfold State.cmdSetHeadOptions State.judged; dsimp only; (repeat' split) <;> simp
@[simp] theorem State.cmdSetHeadOptions_bench_assembly (s : State) (a b c d : Word) : (s.cmdSetHeadOptions a b c d).bench.assembly = s.bench.assembly := by
  unfold State.cmdSetHeadOptions State.judged; dsimp only; (repeat' split) <;> simp
@[simp] theorem State.cmdSetHeadOptions_bench_returnQueue (s : State) (a b c d : Word) : (s.cmdSetHeadOptions a b c d).bench.returnQueue = s.bench.returnQueue := by
  unfold State.cmdSetHeadOptions State.judged; dsimp only; (repeat' split) <;> simp
@[simp] theorem State.cmdSetHeadOptions_bench_window (s : State) (a b c d : Word) : (s.cmdSetHeadOptions a b c d).bench.window = s.bench.window := by
  unfold State.cmdSetHeadOptions State.judged; dsimp only; (repeat' split) <;> simp
@[simp] theorem State.cmdSetHeadOptions_bench_order (s : State) (a b c d : Word) : (s.cmdSetHeadOptions a b c d).bench.order = s.bench.order := by
  unfold State.cmdSetHeadOptions State.judged; dsimp only; (repeat' split) <;> simp
@[simp] theorem State.cmdSetHeadOptions_bench_pointer (s : State) (a b c d : Word) : (s.cmdSetHeadOptions a b c d).bench.pointer = s.bench.pointer := by
  unfold State.cmdSetHeadOptions State.judged; dsimp only; (repeat' split) <;> simp
@[simp] theorem State.cmdSetHeadOptions_bench_stream (s : State) (a b c d : Word) : (s.cmdSetHeadOptions a b c d).bench.stream = s.bench.stream := by
  unfold State.cmdSetHeadOptions State.judged; dsimp only; (repeat' split) <;> simp
@[simp] theorem State.cmdSetHeadOptions_bench_enables (s : State) (a b c d : Word) : (s.cmdSetHeadOptions a b c d).bench.enables = s.bench.enables := by
  unfold State.cmdSetHeadOptions State.judged; dsimp only; (repeat' split) <;> simp
@[simp] theorem State.cmdSetHeadOptions_bench_selected (s : State) (a b c d : Word) : (s.cmdSetHeadOptions a b c d).bench.selected = s.bench.selected := by
  unfold State.cmdSetHeadOptions State.judged; dsimp only; (repeat' split) <;> simp
@[simp] theorem State.cmdSetHeadOptions_bench_out (s : State) (a b c d : Word) : (s.cmdSetHeadOptions a b c d).bench.out = s.bench.out := by
  unfold State.cmdSetHeadOptions State.judged; dsimp only; (repeat' split) <;> simp

/-! ### cmdClearEvents -/

@[simp] theorem State.cmdClearEvents_map (s : State) (m : Word) : (s.cmdClearEvents m).map = s.map := by
  unfold State.cmdClearEvents State.judged; dsimp only; (repeat' split) <;> simp
@[simp] theorem State.cmdClearEvents_profiles (s : State) (m : Word) : (s.cmdClearEvents m).profiles = s.profiles := by
  unfold State.cmdClearEvents State.judged; dsimp only; (repeat' split) <;> simp
@[simp] theorem State.cmdClearEvents_publishing (s : State) (m : Word) : (s.cmdClearEvents m).publishing = s.publishing := by
  unfold State.cmdClearEvents State.judged; dsimp only; (repeat' split) <;> simp
@[simp] theorem State.cmdClearEvents_settings (s : State) (m : Word) : (s.cmdClearEvents m).settings = s.settings := by
  unfold State.cmdClearEvents State.judged; dsimp only; (repeat' split) <;> simp
@[simp] theorem State.cmdClearEvents_sweep (s : State) (m : Word) : (s.cmdClearEvents m).sweep = s.sweep := by
  unfold State.cmdClearEvents State.judged; dsimp only; (repeat' split) <;> simp
@[simp] theorem State.cmdClearEvents_capture (s : State) (m : Word) : (s.cmdClearEvents m).capture = s.capture := by
  unfold State.cmdClearEvents State.judged; dsimp only; (repeat' split) <;> simp
@[simp] theorem State.cmdClearEvents_index (s : State) (m : Word) : (s.cmdClearEvents m).index = s.index := by
  unfold State.cmdClearEvents State.judged; dsimp only; (repeat' split) <;> simp
@[simp] theorem State.cmdClearEvents_held (s : State) (m : Word) : (s.cmdClearEvents m).held = s.held := by
  unfold State.cmdClearEvents State.judged; dsimp only; (repeat' split) <;> simp
@[simp] theorem State.cmdClearEvents_autoRequests (s : State) (m : Word) : (s.cmdClearEvents m).autoRequests = s.autoRequests := by
  unfold State.cmdClearEvents State.judged; dsimp only; (repeat' split) <;> simp
@[simp] theorem State.cmdClearEvents_runs (s : State) (m : Word) : (s.cmdClearEvents m).runs = s.runs := by
  unfold State.cmdClearEvents State.judged; dsimp only; (repeat' split) <;> simp
@[simp] theorem State.cmdClearEvents_ff (s : State) (m : Word) : (s.cmdClearEvents m).ff = s.ff := by
  unfold State.cmdClearEvents State.judged; dsimp only; (repeat' split) <;> simp
@[simp] theorem State.cmdClearEvents_exclusions (s : State) (m : Word) : (s.cmdClearEvents m).exclusions = s.exclusions := by
  unfold State.cmdClearEvents State.judged; dsimp only; (repeat' split) <;> simp
@[simp] theorem State.cmdClearEvents_perms (s : State) (m : Word) : (s.cmdClearEvents m).perms = s.perms := by
  unfold State.cmdClearEvents State.judged; dsimp only; (repeat' split) <;> simp
@[simp] theorem State.cmdClearEvents_startup (s : State) (m : Word) : (s.cmdClearEvents m).startup = s.startup := by
  unfold State.cmdClearEvents State.judged; dsimp only; (repeat' split) <;> simp
@[simp] theorem State.cmdClearEvents_publishAtOnce (s : State) (m : Word) : (s.cmdClearEvents m).publishAtOnce = s.publishAtOnce := by
  unfold State.cmdClearEvents State.judged; dsimp only; (repeat' split) <;> simp
@[simp] theorem State.cmdClearEvents_autoOrder (s : State) (m : Word) : (s.cmdClearEvents m).autoOrder = s.autoOrder := by
  unfold State.cmdClearEvents State.judged; dsimp only; (repeat' split) <;> simp
@[simp] theorem State.cmdClearEvents_pending (s : State) (m : Word) : (s.cmdClearEvents m).pending = s.pending := by
  unfold State.cmdClearEvents State.judged; dsimp only; (repeat' split) <;> simp
@[simp] theorem State.cmdClearEvents_bench_assembly (s : State) (m : Word) : (s.cmdClearEvents m).bench.assembly = s.bench.assembly := by
  unfold State.cmdClearEvents State.judged; dsimp only; (repeat' split) <;> simp
@[simp] theorem State.cmdClearEvents_bench_returnQueue (s : State) (m : Word) : (s.cmdClearEvents m).bench.returnQueue = s.bench.returnQueue := by
  unfold State.cmdClearEvents State.judged; dsimp only; (repeat' split) <;> simp
@[simp] theorem State.cmdClearEvents_bench_window (s : State) (m : Word) : (s.cmdClearEvents m).bench.window = s.bench.window := by
  unfold State.cmdClearEvents State.judged; dsimp only; (repeat' split) <;> simp
@[simp] theorem State.cmdClearEvents_bench_order (s : State) (m : Word) : (s.cmdClearEvents m).bench.order = s.bench.order := by
  unfold State.cmdClearEvents State.judged; dsimp only; (repeat' split) <;> simp
@[simp] theorem State.cmdClearEvents_bench_pointer (s : State) (m : Word) : (s.cmdClearEvents m).bench.pointer = s.bench.pointer := by
  unfold State.cmdClearEvents State.judged; dsimp only; (repeat' split) <;> simp
@[simp] theorem State.cmdClearEvents_bench_stream (s : State) (m : Word) : (s.cmdClearEvents m).bench.stream = s.bench.stream := by
  unfold State.cmdClearEvents State.judged; dsimp only; (repeat' split) <;> simp
@[simp] theorem State.cmdClearEvents_bench_enables (s : State) (m : Word) : (s.cmdClearEvents m).bench.enables = s.bench.enables := by
  unfold State.cmdClearEvents State.judged; dsimp only; (repeat' split) <;> simp
@[simp] theorem State.cmdClearEvents_bench_selected (s : State) (m : Word) : (s.cmdClearEvents m).bench.selected = s.bench.selected := by
  unfold State.cmdClearEvents State.judged; dsimp only; (repeat' split) <;> simp
@[simp] theorem State.cmdClearEvents_bench_out (s : State) (m : Word) : (s.cmdClearEvents m).bench.out = s.bench.out := by
  unfold State.cmdClearEvents State.judged; dsimp only; (repeat' split) <;> simp

/-! ### cmdSetEventEnables -/

@[simp] theorem State.cmdSetEventEnables_map (s : State) (m : Word) : (s.cmdSetEventEnables m).map = s.map := by
  unfold State.cmdSetEventEnables State.judged; dsimp only; (repeat' split) <;> simp
@[simp] theorem State.cmdSetEventEnables_profiles (s : State) (m : Word) : (s.cmdSetEventEnables m).profiles = s.profiles := by
  unfold State.cmdSetEventEnables State.judged; dsimp only; (repeat' split) <;> simp
@[simp] theorem State.cmdSetEventEnables_publishing (s : State) (m : Word) : (s.cmdSetEventEnables m).publishing = s.publishing := by
  unfold State.cmdSetEventEnables State.judged; dsimp only; (repeat' split) <;> simp
@[simp] theorem State.cmdSetEventEnables_settings (s : State) (m : Word) : (s.cmdSetEventEnables m).settings = s.settings := by
  unfold State.cmdSetEventEnables State.judged; dsimp only; (repeat' split) <;> simp
@[simp] theorem State.cmdSetEventEnables_sweep (s : State) (m : Word) : (s.cmdSetEventEnables m).sweep = s.sweep := by
  unfold State.cmdSetEventEnables State.judged; dsimp only; (repeat' split) <;> simp
@[simp] theorem State.cmdSetEventEnables_capture (s : State) (m : Word) : (s.cmdSetEventEnables m).capture = s.capture := by
  unfold State.cmdSetEventEnables State.judged; dsimp only; (repeat' split) <;> simp
@[simp] theorem State.cmdSetEventEnables_index (s : State) (m : Word) : (s.cmdSetEventEnables m).index = s.index := by
  unfold State.cmdSetEventEnables State.judged; dsimp only; (repeat' split) <;> simp
@[simp] theorem State.cmdSetEventEnables_held (s : State) (m : Word) : (s.cmdSetEventEnables m).held = s.held := by
  unfold State.cmdSetEventEnables State.judged; dsimp only; (repeat' split) <;> simp
@[simp] theorem State.cmdSetEventEnables_autoRequests (s : State) (m : Word) : (s.cmdSetEventEnables m).autoRequests = s.autoRequests := by
  unfold State.cmdSetEventEnables State.judged; dsimp only; (repeat' split) <;> simp
@[simp] theorem State.cmdSetEventEnables_runs (s : State) (m : Word) : (s.cmdSetEventEnables m).runs = s.runs := by
  unfold State.cmdSetEventEnables State.judged; dsimp only; (repeat' split) <;> simp
@[simp] theorem State.cmdSetEventEnables_ff (s : State) (m : Word) : (s.cmdSetEventEnables m).ff = s.ff := by
  unfold State.cmdSetEventEnables State.judged; dsimp only; (repeat' split) <;> simp
@[simp] theorem State.cmdSetEventEnables_exclusions (s : State) (m : Word) : (s.cmdSetEventEnables m).exclusions = s.exclusions := by
  unfold State.cmdSetEventEnables State.judged; dsimp only; (repeat' split) <;> simp
@[simp] theorem State.cmdSetEventEnables_perms (s : State) (m : Word) : (s.cmdSetEventEnables m).perms = s.perms := by
  unfold State.cmdSetEventEnables State.judged; dsimp only; (repeat' split) <;> simp
@[simp] theorem State.cmdSetEventEnables_startup (s : State) (m : Word) : (s.cmdSetEventEnables m).startup = s.startup := by
  unfold State.cmdSetEventEnables State.judged; dsimp only; (repeat' split) <;> simp
@[simp] theorem State.cmdSetEventEnables_publishAtOnce (s : State) (m : Word) : (s.cmdSetEventEnables m).publishAtOnce = s.publishAtOnce := by
  unfold State.cmdSetEventEnables State.judged; dsimp only; (repeat' split) <;> simp
@[simp] theorem State.cmdSetEventEnables_autoOrder (s : State) (m : Word) : (s.cmdSetEventEnables m).autoOrder = s.autoOrder := by
  unfold State.cmdSetEventEnables State.judged; dsimp only; (repeat' split) <;> simp
@[simp] theorem State.cmdSetEventEnables_pending (s : State) (m : Word) : (s.cmdSetEventEnables m).pending = s.pending := by
  unfold State.cmdSetEventEnables State.judged; dsimp only; (repeat' split) <;> simp
@[simp] theorem State.cmdSetEventEnables_bench_assembly (s : State) (m : Word) : (s.cmdSetEventEnables m).bench.assembly = s.bench.assembly := by
  unfold State.cmdSetEventEnables State.judged; dsimp only; (repeat' split) <;> simp
@[simp] theorem State.cmdSetEventEnables_bench_returnQueue (s : State) (m : Word) : (s.cmdSetEventEnables m).bench.returnQueue = s.bench.returnQueue := by
  unfold State.cmdSetEventEnables State.judged; dsimp only; (repeat' split) <;> simp
@[simp] theorem State.cmdSetEventEnables_bench_window (s : State) (m : Word) : (s.cmdSetEventEnables m).bench.window = s.bench.window := by
  unfold State.cmdSetEventEnables State.judged; dsimp only; (repeat' split) <;> simp
@[simp] theorem State.cmdSetEventEnables_bench_order (s : State) (m : Word) : (s.cmdSetEventEnables m).bench.order = s.bench.order := by
  unfold State.cmdSetEventEnables State.judged; dsimp only; (repeat' split) <;> simp
@[simp] theorem State.cmdSetEventEnables_bench_pointer (s : State) (m : Word) : (s.cmdSetEventEnables m).bench.pointer = s.bench.pointer := by
  unfold State.cmdSetEventEnables State.judged; dsimp only; (repeat' split) <;> simp
@[simp] theorem State.cmdSetEventEnables_bench_stream (s : State) (m : Word) : (s.cmdSetEventEnables m).bench.stream = s.bench.stream := by
  unfold State.cmdSetEventEnables State.judged; dsimp only; (repeat' split) <;> simp
@[simp] theorem State.cmdSetEventEnables_bench_selected (s : State) (m : Word) : (s.cmdSetEventEnables m).bench.selected = s.bench.selected := by
  unfold State.cmdSetEventEnables State.judged; dsimp only; (repeat' split) <;> simp
@[simp] theorem State.cmdSetEventEnables_bench_out (s : State) (m : Word) : (s.cmdSetEventEnables m).bench.out = s.bench.out := by
  unfold State.cmdSetEventEnables State.judged; dsimp only; (repeat' split) <;> simp

/-! ### cmdSelectUnit -/

@[simp] theorem State.cmdSelectUnit_map (s : State) (u : Word) : (s.cmdSelectUnit u).map = s.map := by
  unfold State.cmdSelectUnit; (repeat' split) <;> simp
@[simp] theorem State.cmdSelectUnit_profiles (s : State) (u : Word) : (s.cmdSelectUnit u).profiles = s.profiles := by
  unfold State.cmdSelectUnit; (repeat' split) <;> simp
@[simp] theorem State.cmdSelectUnit_publishing (s : State) (u : Word) : (s.cmdSelectUnit u).publishing = s.publishing := by
  unfold State.cmdSelectUnit; (repeat' split) <;> simp
@[simp] theorem State.cmdSelectUnit_settings (s : State) (u : Word) : (s.cmdSelectUnit u).settings = s.settings := by
  unfold State.cmdSelectUnit; (repeat' split) <;> simp
@[simp] theorem State.cmdSelectUnit_sweep (s : State) (u : Word) : (s.cmdSelectUnit u).sweep = s.sweep := by
  unfold State.cmdSelectUnit; (repeat' split) <;> simp
@[simp] theorem State.cmdSelectUnit_capture (s : State) (u : Word) : (s.cmdSelectUnit u).capture = s.capture := by
  unfold State.cmdSelectUnit; (repeat' split) <;> simp
@[simp] theorem State.cmdSelectUnit_index (s : State) (u : Word) : (s.cmdSelectUnit u).index = s.index := by
  unfold State.cmdSelectUnit; (repeat' split) <;> simp
@[simp] theorem State.cmdSelectUnit_held (s : State) (u : Word) : (s.cmdSelectUnit u).held = s.held := by
  unfold State.cmdSelectUnit; (repeat' split) <;> simp
@[simp] theorem State.cmdSelectUnit_autoRequests (s : State) (u : Word) : (s.cmdSelectUnit u).autoRequests = s.autoRequests := by
  unfold State.cmdSelectUnit; (repeat' split) <;> simp
@[simp] theorem State.cmdSelectUnit_runs (s : State) (u : Word) : (s.cmdSelectUnit u).runs = s.runs := by
  unfold State.cmdSelectUnit; (repeat' split) <;> simp
@[simp] theorem State.cmdSelectUnit_ff (s : State) (u : Word) : (s.cmdSelectUnit u).ff = s.ff := by
  unfold State.cmdSelectUnit; (repeat' split) <;> simp
@[simp] theorem State.cmdSelectUnit_exclusions (s : State) (u : Word) : (s.cmdSelectUnit u).exclusions = s.exclusions := by
  unfold State.cmdSelectUnit; (repeat' split) <;> simp
@[simp] theorem State.cmdSelectUnit_perms (s : State) (u : Word) : (s.cmdSelectUnit u).perms = s.perms := by
  unfold State.cmdSelectUnit; (repeat' split) <;> simp
@[simp] theorem State.cmdSelectUnit_startup (s : State) (u : Word) : (s.cmdSelectUnit u).startup = s.startup := by
  unfold State.cmdSelectUnit; (repeat' split) <;> simp
@[simp] theorem State.cmdSelectUnit_publishAtOnce (s : State) (u : Word) : (s.cmdSelectUnit u).publishAtOnce = s.publishAtOnce := by
  unfold State.cmdSelectUnit; (repeat' split) <;> simp
@[simp] theorem State.cmdSelectUnit_autoOrder (s : State) (u : Word) : (s.cmdSelectUnit u).autoOrder = s.autoOrder := by
  unfold State.cmdSelectUnit; (repeat' split) <;> simp
@[simp] theorem State.cmdSelectUnit_pending (s : State) (u : Word) : (s.cmdSelectUnit u).pending = s.pending := by
  unfold State.cmdSelectUnit; (repeat' split) <;> simp
@[simp] theorem State.cmdSelectUnit_bench_assembly (s : State) (u : Word) : (s.cmdSelectUnit u).bench.assembly = s.bench.assembly := by
  unfold State.cmdSelectUnit; (repeat' split) <;> simp
@[simp] theorem State.cmdSelectUnit_bench_returnQueue (s : State) (u : Word) : (s.cmdSelectUnit u).bench.returnQueue = s.bench.returnQueue := by
  unfold State.cmdSelectUnit; (repeat' split) <;> simp
@[simp] theorem State.cmdSelectUnit_bench_window (s : State) (u : Word) : (s.cmdSelectUnit u).bench.window = s.bench.window := by
  unfold State.cmdSelectUnit; (repeat' split) <;> simp
@[simp] theorem State.cmdSelectUnit_bench_order (s : State) (u : Word) : (s.cmdSelectUnit u).bench.order = s.bench.order := by
  unfold State.cmdSelectUnit; (repeat' split) <;> simp
@[simp] theorem State.cmdSelectUnit_bench_pointer (s : State) (u : Word) : (s.cmdSelectUnit u).bench.pointer = s.bench.pointer := by
  unfold State.cmdSelectUnit; (repeat' split) <;> simp
@[simp] theorem State.cmdSelectUnit_bench_stream (s : State) (u : Word) : (s.cmdSelectUnit u).bench.stream = s.bench.stream := by
  unfold State.cmdSelectUnit; (repeat' split) <;> simp
@[simp] theorem State.cmdSelectUnit_bench_enables (s : State) (u : Word) : (s.cmdSelectUnit u).bench.enables = s.bench.enables := by
  unfold State.cmdSelectUnit; (repeat' split) <;> simp
@[simp] theorem State.cmdSelectUnit_bench_out (s : State) (u : Word) : (s.cmdSelectUnit u).bench.out = s.bench.out := by
  unfold State.cmdSelectUnit; (repeat' split) <;> simp

/-! ### cmdNull -/

@[simp] theorem State.cmdNull_map (s : State) : (s.cmdNull).map = s.map := by
  unfold State.cmdNull; (repeat' split) <;> simp
@[simp] theorem State.cmdNull_profiles (s : State) : (s.cmdNull).profiles = s.profiles := by
  unfold State.cmdNull; (repeat' split) <;> simp
@[simp] theorem State.cmdNull_publishing (s : State) : (s.cmdNull).publishing = s.publishing := by
  unfold State.cmdNull; (repeat' split) <;> simp
@[simp] theorem State.cmdNull_settings (s : State) : (s.cmdNull).settings = s.settings := by
  unfold State.cmdNull; (repeat' split) <;> simp
@[simp] theorem State.cmdNull_sweep (s : State) : (s.cmdNull).sweep = s.sweep := by
  unfold State.cmdNull; (repeat' split) <;> simp
@[simp] theorem State.cmdNull_capture (s : State) : (s.cmdNull).capture = s.capture := by
  unfold State.cmdNull; (repeat' split) <;> simp
@[simp] theorem State.cmdNull_index (s : State) : (s.cmdNull).index = s.index := by
  unfold State.cmdNull; (repeat' split) <;> simp
@[simp] theorem State.cmdNull_held (s : State) : (s.cmdNull).held = s.held := by
  unfold State.cmdNull; (repeat' split) <;> simp
@[simp] theorem State.cmdNull_autoRequests (s : State) : (s.cmdNull).autoRequests = s.autoRequests := by
  unfold State.cmdNull; (repeat' split) <;> simp
@[simp] theorem State.cmdNull_runs (s : State) : (s.cmdNull).runs = s.runs := by
  unfold State.cmdNull; (repeat' split) <;> simp
@[simp] theorem State.cmdNull_ff (s : State) : (s.cmdNull).ff = s.ff := by
  unfold State.cmdNull; (repeat' split) <;> simp
@[simp] theorem State.cmdNull_exclusions (s : State) : (s.cmdNull).exclusions = s.exclusions := by
  unfold State.cmdNull; (repeat' split) <;> simp
@[simp] theorem State.cmdNull_perms (s : State) : (s.cmdNull).perms = s.perms := by
  unfold State.cmdNull; (repeat' split) <;> simp
@[simp] theorem State.cmdNull_startup (s : State) : (s.cmdNull).startup = s.startup := by
  unfold State.cmdNull; (repeat' split) <;> simp
@[simp] theorem State.cmdNull_publishAtOnce (s : State) : (s.cmdNull).publishAtOnce = s.publishAtOnce := by
  unfold State.cmdNull; (repeat' split) <;> simp
@[simp] theorem State.cmdNull_autoOrder (s : State) : (s.cmdNull).autoOrder = s.autoOrder := by
  unfold State.cmdNull; (repeat' split) <;> simp
@[simp] theorem State.cmdNull_pending (s : State) : (s.cmdNull).pending = s.pending := by
  unfold State.cmdNull; (repeat' split) <;> simp
@[simp] theorem State.cmdNull_bench_assembly (s : State) : (s.cmdNull).bench.assembly = s.bench.assembly := by
  unfold State.cmdNull; (repeat' split) <;> simp
@[simp] theorem State.cmdNull_bench_returnQueue (s : State) : (s.cmdNull).bench.returnQueue = s.bench.returnQueue := by
  unfold State.cmdNull; (repeat' split) <;> simp
@[simp] theorem State.cmdNull_bench_window (s : State) : (s.cmdNull).bench.window = s.bench.window := by
  unfold State.cmdNull; (repeat' split) <;> simp
@[simp] theorem State.cmdNull_bench_order (s : State) : (s.cmdNull).bench.order = s.bench.order := by
  unfold State.cmdNull; (repeat' split) <;> simp
@[simp] theorem State.cmdNull_bench_pointer (s : State) : (s.cmdNull).bench.pointer = s.bench.pointer := by
  unfold State.cmdNull; (repeat' split) <;> simp
@[simp] theorem State.cmdNull_bench_stream (s : State) : (s.cmdNull).bench.stream = s.bench.stream := by
  unfold State.cmdNull; (repeat' split) <;> simp
@[simp] theorem State.cmdNull_bench_enables (s : State) : (s.cmdNull).bench.enables = s.bench.enables := by
  unfold State.cmdNull; (repeat' split) <;> simp
@[simp] theorem State.cmdNull_bench_selected (s : State) : (s.cmdNull).bench.selected = s.bench.selected := by
  unfold State.cmdNull; (repeat' split) <;> simp
@[simp] theorem State.cmdNull_bench_out (s : State) : (s.cmdNull).bench.out = s.bench.out := by
  unfold State.cmdNull; (repeat' split) <;> simp

/-! ### applyUnitReset -/

@[simp] theorem State.applyUnitReset_publishing (s : State) : (s.applyUnitReset).publishing = s.publishing := by
  unfold State.applyUnitReset; simp
@[simp] theorem State.applyUnitReset_settings (s : State) : (s.applyUnitReset).settings = s.settings := by
  unfold State.applyUnitReset; simp
@[simp] theorem State.applyUnitReset_sweep (s : State) : (s.applyUnitReset).sweep = s.sweep := by
  unfold State.applyUnitReset; simp
@[simp] theorem State.applyUnitReset_autoRequests (s : State) : (s.applyUnitReset).autoRequests = s.autoRequests := by
  unfold State.applyUnitReset; simp
@[simp] theorem State.applyUnitReset_ff (s : State) : (s.applyUnitReset).ff = s.ff := by
  unfold State.applyUnitReset; simp
@[simp] theorem State.applyUnitReset_exclusions (s : State) : (s.applyUnitReset).exclusions = s.exclusions := by
  unfold State.applyUnitReset; simp
@[simp] theorem State.applyUnitReset_perms (s : State) : (s.applyUnitReset).perms = s.perms := by
  unfold State.applyUnitReset; simp
@[simp] theorem State.applyUnitReset_startup (s : State) : (s.applyUnitReset).startup = s.startup := by
  unfold State.applyUnitReset; simp
@[simp] theorem State.applyUnitReset_publishAtOnce (s : State) : (s.applyUnitReset).publishAtOnce = s.publishAtOnce := by
  unfold State.applyUnitReset; simp
@[simp] theorem State.applyUnitReset_autoOrder (s : State) : (s.applyUnitReset).autoOrder = s.autoOrder := by
  unfold State.applyUnitReset; simp
@[simp] theorem State.applyUnitReset_pending (s : State) : (s.applyUnitReset).pending = s.pending := by
  unfold State.applyUnitReset; simp
@[simp] theorem State.applyUnitReset_bench_assembly (s : State) : (s.applyUnitReset).bench.assembly = s.bench.assembly := by
  unfold State.applyUnitReset; simp
@[simp] theorem State.applyUnitReset_bench_window (s : State) : (s.applyUnitReset).bench.window = s.bench.window := by
  unfold State.applyUnitReset; simp
@[simp] theorem State.applyUnitReset_bench_order (s : State) : (s.applyUnitReset).bench.order = s.bench.order := by
  unfold State.applyUnitReset; simp
@[simp] theorem State.applyUnitReset_bench_lastOutcome (s : State) : (s.applyUnitReset).bench.lastOutcome = s.bench.lastOutcome := by
  unfold State.applyUnitReset; simp
@[simp] theorem State.applyUnitReset_bench_enables (s : State) : (s.applyUnitReset).bench.enables = s.bench.enables := by
  unfold State.applyUnitReset; simp
@[simp] theorem State.applyUnitReset_bench_selected (s : State) : (s.applyUnitReset).bench.selected = s.bench.selected := by
  unfold State.applyUnitReset; simp
@[simp] theorem State.applyUnitReset_bench_out (s : State) : (s.applyUnitReset).bench.out = s.bench.out := by
  unfold State.applyUnitReset; simp
@[simp] theorem State.applyUnitReset_runs_serial (s : State) : (s.applyUnitReset).runs.serial = s.runs.serial := by
  unfold State.applyUnitReset; simp

/-! ### cmdUnitReset -/

@[simp] theorem State.cmdUnitReset_publishing (s : State) : (s.cmdUnitReset).publishing = s.publishing := by
  unfold State.cmdUnitReset; (repeat' split) <;> simp
@[simp] theorem State.cmdUnitReset_settings (s : State) : (s.cmdUnitReset).settings = s.settings := by
  unfold State.cmdUnitReset; (repeat' split) <;> simp
@[simp] theorem State.cmdUnitReset_sweep (s : State) : (s.cmdUnitReset).sweep = s.sweep := by
  unfold State.cmdUnitReset; (repeat' split) <;> simp
@[simp] theorem State.cmdUnitReset_autoRequests (s : State) : (s.cmdUnitReset).autoRequests = s.autoRequests := by
  unfold State.cmdUnitReset; (repeat' split) <;> simp
@[simp] theorem State.cmdUnitReset_ff (s : State) : (s.cmdUnitReset).ff = s.ff := by
  unfold State.cmdUnitReset; (repeat' split) <;> simp
@[simp] theorem State.cmdUnitReset_exclusions (s : State) : (s.cmdUnitReset).exclusions = s.exclusions := by
  unfold State.cmdUnitReset; (repeat' split) <;> simp
@[simp] theorem State.cmdUnitReset_perms (s : State) : (s.cmdUnitReset).perms = s.perms := by
  unfold State.cmdUnitReset; (repeat' split) <;> simp
@[simp] theorem State.cmdUnitReset_startup (s : State) : (s.cmdUnitReset).startup = s.startup := by
  unfold State.cmdUnitReset; (repeat' split) <;> simp
@[simp] theorem State.cmdUnitReset_publishAtOnce (s : State) : (s.cmdUnitReset).publishAtOnce = s.publishAtOnce := by
  unfold State.cmdUnitReset; (repeat' split) <;> simp
@[simp] theorem State.cmdUnitReset_autoOrder (s : State) : (s.cmdUnitReset).autoOrder = s.autoOrder := by
  unfold State.cmdUnitReset; (repeat' split) <;> simp
@[simp] theorem State.cmdUnitReset_pending (s : State) : (s.cmdUnitReset).pending = s.pending := by
  unfold State.cmdUnitReset; (repeat' split) <;> simp
@[simp] theorem State.cmdUnitReset_bench_assembly (s : State) : (s.cmdUnitReset).bench.assembly = s.bench.assembly := by
  unfold State.cmdUnitReset; (repeat' split) <;> simp
@[simp] theorem State.cmdUnitReset_bench_window (s : State) : (s.cmdUnitReset).bench.window = s.bench.window := by
  unfold State.cmdUnitReset; (repeat' split) <;> simp
@[simp] theorem State.cmdUnitReset_bench_order (s : State) : (s.cmdUnitReset).bench.order = s.bench.order := by
  unfold State.cmdUnitReset; (repeat' split) <;> simp
@[simp] theorem State.cmdUnitReset_bench_enables (s : State) : (s.cmdUnitReset).bench.enables = s.bench.enables := by
  unfold State.cmdUnitReset; (repeat' split) <;> simp
@[simp] theorem State.cmdUnitReset_bench_selected (s : State) : (s.cmdUnitReset).bench.selected = s.bench.selected := by
  unfold State.cmdUnitReset; (repeat' split) <;> simp
@[simp] theorem State.cmdUnitReset_bench_out (s : State) : (s.cmdUnitReset).bench.out = s.bench.out := by
  unfold State.cmdUnitReset; (repeat' split) <;> simp
@[simp] theorem State.cmdUnitReset_runs_serial (s : State) : (s.cmdUnitReset).runs.serial = s.runs.serial := by
  unfold State.cmdUnitReset; (repeat' split) <;> simp

/-! ### cmdSelfTest -/

@[simp] theorem State.cmdSelfTest_settings (s : State) : (s.cmdSelfTest).settings = s.settings := by
  unfold State.cmdSelfTest; dsimp only; simp
@[simp] theorem State.cmdSelfTest_held (s : State) : (s.cmdSelfTest).held = s.held := by
  unfold State.cmdSelfTest; dsimp only; simp
@[simp] theorem State.cmdSelfTest_autoRequests (s : State) : (s.cmdSelfTest).autoRequests = s.autoRequests := by
  unfold State.cmdSelfTest; dsimp only; simp
@[simp] theorem State.cmdSelfTest_ff (s : State) : (s.cmdSelfTest).ff = s.ff := by
  unfold State.cmdSelfTest; dsimp only; simp
@[simp] theorem State.cmdSelfTest_publishAtOnce (s : State) : (s.cmdSelfTest).publishAtOnce = s.publishAtOnce := by
  unfold State.cmdSelfTest; dsimp only; simp
@[simp] theorem State.cmdSelfTest_autoOrder (s : State) : (s.cmdSelfTest).autoOrder = s.autoOrder := by
  unfold State.cmdSelfTest; dsimp only; simp
@[simp] theorem State.cmdSelfTest_pending (s : State) : (s.cmdSelfTest).pending = s.pending := by
  unfold State.cmdSelfTest; dsimp only; simp
@[simp] theorem State.cmdSelfTest_bench_assembly (s : State) : (s.cmdSelfTest).bench.assembly = s.bench.assembly := by
  unfold State.cmdSelfTest; dsimp only; simp
@[simp] theorem State.cmdSelfTest_bench_returnQueue (s : State) : (s.cmdSelfTest).bench.returnQueue = s.bench.returnQueue := by
  unfold State.cmdSelfTest; dsimp only; simp
@[simp] theorem State.cmdSelfTest_bench_window (s : State) : (s.cmdSelfTest).bench.window = s.bench.window := by
  unfold State.cmdSelfTest; dsimp only; simp
@[simp] theorem State.cmdSelfTest_bench_order (s : State) : (s.cmdSelfTest).bench.order = s.bench.order := by
  unfold State.cmdSelfTest; dsimp only; simp
@[simp] theorem State.cmdSelfTest_bench_enables (s : State) : (s.cmdSelfTest).bench.enables = s.bench.enables := by
  unfold State.cmdSelfTest; dsimp only; simp
@[simp] theorem State.cmdSelfTest_bench_selected (s : State) : (s.cmdSelfTest).bench.selected = s.bench.selected := by
  unfold State.cmdSelfTest; dsimp only; simp
@[simp] theorem State.cmdSelfTest_bench_out (s : State) : (s.cmdSelfTest).bench.out = s.bench.out := by
  unfold State.cmdSelfTest; dsimp only; simp
@[simp] theorem State.cmdSelfTest_runs_serial (s : State) : (s.cmdSelfTest).runs.serial = s.runs.serial := by
  unfold State.cmdSelfTest; dsimp only; simp

end Sys2Proof.Machine
end

