-- ==== Sys2Proof/Laws/Exec.lean ====
section
/-! SUPPORT. One argument for every step: a property that each command, each event and each operation of the framing keeps is
kept by `exec` and by `step`; and one for the single words of the link. -/

namespace Sys2Proof.Machine

/-- The operations that a single word of the link is made of keep a property of the state: the framing, and the commands
with parameters. -/
structure WordsKeep (P : State → Prop) : Prop where
  assembly (s : State) (a : Assembly) : P s → P { s with bench := { s.bench with assembly := a } }
  refuse (s : State) (o : Outcome) : P s → P (s.refuse o)
  reply (s : State) : P s → P s.formReply
  learning (s : State) : P s → P s.grantLearning
  streamRead (s : State) : P s → P s.completeStreamRead
  streamStart (s : State) (left : Option Nat) (crc : Option (BitVec 32)) : P s → P (s.accept.readStreamItem left crc)
  writeWord (s : State) (p : Pointer) (w : Word) : s.bench.pointer = some p → P s → P (s.writeWord p w)
  importMatch (s : State) (h : Head) : P s → P (s.importMatch h)
  importFail (s : State) (h : Head) : P s → P (s.importFail h)
  cmdSetGeometry (s : State) (a b : Word) : P s → P (s.cmdSetGeometry a b)
  cmdFill (s : State) (a b : Word) : P s → P (s.cmdFill a b)
  cmdSetWindow (s : State) (a b c d : Word) : P s → P (s.cmdSetWindow a b c d)
  cmdSetAccessOrder (s : State) (a b c : Word) : P s → P (s.cmdSetAccessOrder a b c)
  cmdPublishNow (s : State) (a : Word) : P s → P (s.cmdPublishNow a)
  cmdEnqueueRun (s : State) (a b c d e f g : Word) : P s → P (s.cmdEnqueueRun a b c d e f g)
  cmdCancelQueued (s : State) (a : Word) : P s → P (s.cmdCancelQueued a)
  cmdExclude (s : State) (a b : Word) : P s → P (s.cmdExclude a b)
  cmdInclude (s : State) (a b : Word) : P s → P (s.cmdInclude a b)
  cmdClearExclusions (s : State) (a : Word) : P s → P (s.cmdClearExclusions a)
  cmdSetPermissions (s : State) (a b c : Word) : P s → P (s.cmdSetPermissions a b c)
  cmdReadMonitor (s : State) (a : Word) : P s → P (s.cmdReadMonitor a)
  cmdSetSetting (s : State) (a b : Word) : P s → P (s.cmdSetSetting a b)
  cmdSetHeadGain (s : State) (a b : Word) : P s → P (s.cmdSetHeadGain a b)
  cmdSetHeadOptions (s : State) (a b c d : Word) : P s → P (s.cmdSetHeadOptions a b c d)
  cmdClearEvents (s : State) (a : Word) : P s → P (s.cmdClearEvents a)
  cmdSetEventEnables (s : State) (a : Word) : P s → P (s.cmdSetEventEnables a)
  cmdSelectUnit (s : State) (a : Word) : P s → P (s.cmdSelectUnit a)

/-- Whether publications stand in ascending order of head (R74). -/
def inHeadOrder (l : List DueHead) : Prop := l.Pairwise fun a b => a.head.val < b.head.val

/-- A change of publications that leaves their heads alone keeps their order. -/
theorem inHeadOrder_map {l : List DueHead} (h : inHeadOrder l) (f : DueHead → DueHead) (hf : ∀ d, (f d).head = d.head) :
    inHeadOrder (l.map f) :=
  List.pairwise_map.mpr (h.imp fun {a b} hab => by rwa [hf a, hf b])

/-- The heads an index finds due are in ascending order (R74). -/
theorem inHeadOrder_dueHeads (s : State) (r : Rev) : inHeadOrder (s.dueHeads r) :=
  List.pairwise_map.mpr (List.Pairwise.filter _ (show allHeads.Pairwise fun a b => a.val < b.val by decide))

/-- Every operation that a step of the part is made of keeps a property of the state. -/
structure KeptBy (P : State → Prop) : Prop extends WordsKeep P where
  queue (s : State) (q : List Instr) : P s → P { s with pending := q }
  strap (s : State) (level : Bool) : P s → P (s.setStrap level)
  returnQueueRead (s : State) : P s → P s.readReturnQueue
  statusRead (s : State) : P s → P s.readStatus
  captureWord (s : State) (b : Bool) (w : Word) : P s → P (s.captureWord b w)
  raise (s : State) (e : Kind) : P s → P (s.raise e)
  schedule (s : State) (l : List DueHead) (n : List Nat) : (inHeadOrder s.publishing → inHeadOrder l) → P s →
    P { s with publishing := l, publishAtOnce := n }
  publishHead (s : State) (d : DueHead) : P s → P (s.publishHead d)
  advanceRev (s : State) : P s → P s.advanceRev
  runIndex (s : State) (r : Rev) : P s → P (s.runIndex r)
  timerExpiry (s : State) : P s → P s.timerExpiry
  runStart (s : State) : P s → P s.startRun
  takeRecord (s : State) : P s → P s.takeRecord
  autoExclusion (s : State) : P s → P s.takeAutoExclusion
  request (s : State) (w : Word) : P s → P (s.takeRequest w)
  replyStrobe (s : State) (b : Bool) : P s → P (s.replyStrobe b)
  sweepStep (s : State) : P s → P s.sweepStep
  powerOn (s : State) (b : Bool) : P s → P (s.powerOn b)
  memoryTest (s : State) (r : MemoryResult) : P s → P (s.endMemoryTest r)
  assertPresent (s : State) : P s → P s.assertPresent
  seePresent (s : State) : P s → P s.seePresent
  closePresence (s : State) : P s → P s.closePresence
  seePassed (s : State) : P s → P s.seePassed
  pairTimeout (s : State) : P s → P s.pairTimeout
  presentRelease (s : State) : P s → P (s.setPresLine false)
  cmdNull (s : State) : P s → P s.cmdNull
  cmdSelfTest (s : State) : P s → P s.cmdSelfTest
  cmdUnitReset (s : State) : P s → P s.cmdUnitReset
  cmdHaltStream (s : State) : P s → P s.cmdHaltStream
  cmdWriteMap (s : State) : P s → P s.cmdWriteMap
  cmdWriteMapContinue (s : State) : P s → P s.cmdWriteMapContinue
  placeItem (s : State) (p : Pointer) : s.bench.pointer = some p → P s → P (s.placeItem p)
  cmdHaltRun (s : State) : P s → P s.cmdHaltRun
  cmdTakeResult (s : State) : P s → P s.cmdTakeResult
  cmdFeedForwardOn (s : State) : P s → P s.cmdFeedForwardOn
  cmdFeedForwardOff (s : State) : P s → P s.cmdFeedForwardOff
  cmdReadExclusions (s : State) : P s → P s.cmdReadExclusions
  cmdReadPermissions (s : State) : P s → P s.cmdReadPermissions
  cmdReadCaptureCounts (s : State) : P s → P s.cmdReadCaptureCounts
  cmdReadIdentity (s : State) : P s → P s.cmdReadIdentity
  cmdReadSettings (s : State) : P s → P s.cmdReadSettings

/-! ### What these operations make up -/

theorem WordsKeep.claimsAhead {P : State → Prop} (k : WordsKeep P) (s : State) (h : P s) : P s.claimsAhead :=
  k.learning _ (k.reply s h)

theorem WordsKeep.takeClaimedRead {P : State → Prop} (k : WordsKeep P) (s : State) (h : P s) : P s.takeClaimedRead := by
  unfold State.takeClaimedRead
  split
  · exact k.streamRead _ (k.claimsAhead s h)
  · exact h

theorem WordsKeep.endAssembly {P : State → Prop} (k : WordsKeep P) (s : State) (h : P s) : P s.endAssembly := by
  have hi : P { s with bench := { s.bench with assembly := .idle } } := k.assembly s .idle h
  unfold State.endAssembly
  split
  · exact h
  · exact k.refuse _ _ hi
  · unfold State.endData
    split
    · exact hi
    · split
      · exact hi
      · exact k.importFail _ _ hi

theorem WordsKeep.writeAtPointer {P : State → Prop} (k : WordsKeep P) (s : State) (w : Word) (h : P s) :
    P (s.writeAtPointer w) := by
  unfold State.writeAtPointer
  split
  · exact h
  · rename_i p hp
    exact k.writeWord _ p w (by simpa using hp) (k.claimsAhead s h)

theorem WordsKeep.importWord {P : State → Prop} (k : WordsKeep P) (s : State) (i : Import) (w : Word) (h : P s) :
    P (s.importWord i w) := by
  unfold State.importWord
  split
  · exact k.assembly _ _ (k.writeAtPointer s w h)
  · exact k.assembly _ _ h
  · dsimp only
    split
    · exact k.importMatch _ _ (k.assembly _ _ h)
    · exact k.importFail _ _ (k.assembly _ _ h)
  · exact h

theorem WordsKeep.dataWord {P : State → Prop} (k : WordsKeep P) (s : State) (imp : Option Import) (w : Word) (h : P s) :
    P (s.dataWord imp w) := by
  cases imp with
  | none => exact k.writeAtPointer s w h
  | some i => exact k.importWord s i w h

theorem WordsKeep.judged {P : State → Prop} (k : WordsKeep P) (s : State) (own : State → State) (ho : P s → P (own s))
    (h : P s) : P (s.judged own) := by
  unfold State.judged
  split
  · exact k.refuse s _ h
  · split
    · exact k.refuse s _ h
    · exact ho h

theorem WordsKeep.judgedAccess {P : State → Prop} (k : WordsKeep P) (s : State) (own : State → State)
    (ho : P s → P (own s)) (h : P s) : P (s.judgedAccess own) := by
  refine k.judged s _ (fun h => ?_) h
  split
  · exact k.refuse s _ h
  · exact ho h

theorem WordsKeep.cmdStreamMap {P : State → Prop} (k : WordsKeep P) (s : State) (count : Word) (h : P s) :
    P (s.cmdStreamMap count) := by
  refine k.judgedAccess s _ (fun h => ?_) h
  split
  · exact k.refuse s _ h
  · exact k.streamStart _ _ _ (k.claimsAhead s h)

theorem KeptBy.cmdReadMapItem {P : State → Prop} (k : KeptBy P) (s : State) (h : P s) : P s.cmdReadMapItem := by
  refine k.judgedAccess s _ (fun h => ?_) h
  split
  · exact k.refuse s _ h
  · rename_i p hp
    exact k.placeItem _ p (by simpa using hp) (k.claimsAhead s h)

theorem KeptBy.publications {P : State → Prop} (k : KeptBy P) (l : List DueHead) (s : State) (h : P s) :
    P (l.foldl State.publishHead s) := by
  induction l generalizing s with
  | nil => exact h
  | cons d l ih => exact ih _ (k.publishHead s d h)

theorem KeptBy.publishNext {P : State → Prop} (k : KeptBy P) (s : State) (h : P s) : P s.publishNext := by
  unfold State.publishNext
  split
  · exact h
  · rename_i d rest hp
    exact k.publishHead _ _ (k.schedule s rest s.publishAtOnce (fun ho => (List.pairwise_cons.mp (hp ▸ ho)).2) h)

theorem KeptBy.index {P : State → Prop} (k : KeptBy P) (s : State) (h : P s) : P s.takeIndex :=
  k.raise _ _ (k.runIndex _ _ (k.publications _ _ (k.schedule _ _ _
    (fun _ => List.Pairwise.sublist (List.drop_sublist _ _) (inHeadOrder_dueHeads _ _)) (k.advanceRev _
      (k.publications _ _ (k.schedule s [] s.publishAtOnce (fun _ => List.Pairwise.nil) h))))))

/-! ### Commands and words -/

theorem WordsKeep.performParams {P : State → Prop} (k : WordsKeep P) (s : State) (code : CmdCode) (p : Word)
    (ps : List Word) (h : P s) : P (s.perform code (p :: ps)) := by
  cases code with
  | null => exact h
  | selfTest => exact h
  | unitReset => exact h
  | haltStream => exact h
  | writeMap => exact h
  | writeMapContinue => exact h
  | readMapItem => exact h
  | haltRun => exact h
  | takeResult => exact h
  | feedForwardOn => exact h
  | feedForwardOff => exact h
  | readExclusions => exact h
  | readPermissions => exact h
  | readCaptureCounts => exact h
  | readIdentity => exact h
  | readSettings => exact h
  | setGeometry =>
    rcases ps with _ | ⟨p2, _ | ⟨_, _⟩⟩
    · exact h
    · exact k.cmdSetGeometry s p p2 h
    · exact h
  | fill =>
    rcases ps with _ | ⟨p2, _ | ⟨_, _⟩⟩
    · exact h
    · exact k.cmdFill s p p2 h
    · exact h
  | setWindow =>
    rcases ps with _ | ⟨p2, _ | ⟨p3, _ | ⟨p4, _ | ⟨_, _⟩⟩⟩⟩
    · exact h
    · exact h
    · exact h
    · exact k.cmdSetWindow s p p2 p3 p4 h
    · exact h
  | setAccessOrder =>
    rcases ps with _ | ⟨p2, _ | ⟨p3, _ | ⟨_, _⟩⟩⟩
    · exact h
    · exact h
    · exact k.cmdSetAccessOrder s p p2 p3 h
    · exact h
  | streamMap =>
    rcases ps with _ | ⟨_, _⟩
    · exact k.cmdStreamMap s p h
    · exact h
  | publishNow =>
    rcases ps with _ | ⟨_, _⟩
    · exact k.cmdPublishNow s p h
    · exact h
  | enqueueRun =>
    rcases ps with _ | ⟨p2, _ | ⟨p3, _ | ⟨p4, _ | ⟨p5, _ | ⟨p6, _ | ⟨p7, _ | ⟨_, _⟩⟩⟩⟩⟩⟩⟩
    · exact h
    · exact h
    · exact h
    · exact h
    · exact h
    · exact h
    · exact k.cmdEnqueueRun s p p2 p3 p4 p5 p6 p7 h
    · exact h
  | cancelQueued =>
    rcases ps with _ | ⟨_, _⟩
    · exact k.cmdCancelQueued s p h
    · exact h
  | excludeWedge =>
    rcases ps with _ | ⟨p2, _ | ⟨_, _⟩⟩
    · exact h
    · exact k.cmdExclude s p p2 h
    · exact h
  | includeWedge =>
    rcases ps with _ | ⟨p2, _ | ⟨_, _⟩⟩
    · exact h
    · exact k.cmdInclude s p p2 h
    · exact h
  | clearExclusions =>
    rcases ps with _ | ⟨_, _⟩
    · exact k.cmdClearExclusions s p h
    · exact h
  | setPermissions =>
    rcases ps with _ | ⟨p2, _ | ⟨p3, _ | ⟨_, _⟩⟩⟩
    · exact h
    · exact h
    · exact k.cmdSetPermissions s p p2 p3 h
    · exact h
  | readMonitor =>
    rcases ps with _ | ⟨_, _⟩
    · exact k.cmdReadMonitor s p h
    · exact h
  | setSetting =>
    rcases ps with _ | ⟨p2, _ | ⟨_, _⟩⟩
    · exact h
    · exact k.cmdSetSetting s p p2 h
    · exact h
  | setHeadGain =>
    rcases ps with _ | ⟨p2, _ | ⟨_, _⟩⟩
    · exact h
    · exact k.cmdSetHeadGain s p p2 h
    · exact h
  | setHeadOptions =>
    rcases ps with _ | ⟨p2, _ | ⟨p3, _ | ⟨p4, _ | ⟨_, _⟩⟩⟩⟩
    · exact h
    · exact h
    · exact h
    · exact k.cmdSetHeadOptions s p p2 p3 p4 h
    · exact h
  | clearEvents =>
    rcases ps with _ | ⟨_, _⟩
    · exact k.cmdClearEvents s p h
    · exact h
  | setEventEnables =>
    rcases ps with _ | ⟨_, _⟩
    · exact k.cmdSetEventEnables s p h
    · exact h
  | selectUnit =>
    rcases ps with _ | ⟨_, _⟩
    · exact k.cmdSelectUnit s p h
    · exact h

theorem KeptBy.perform {P : State → Prop} (k : KeptBy P) (s : State) (code : CmdCode) (ps : List Word) (h : P s) :
    P (s.perform code ps) := by
  cases ps with
  | cons p ps => exact k.toWordsKeep.performParams s code p ps h
  | nil =>
    cases code with
    | null => exact k.cmdNull s h
    | selfTest => exact k.cmdSelfTest s h
    | unitReset => exact k.cmdUnitReset s h
    | haltStream => exact k.cmdHaltStream s h
    | writeMap => exact k.cmdWriteMap s h
    | writeMapContinue => exact k.cmdWriteMapContinue s h
    | readMapItem => exact k.cmdReadMapItem s h
    | haltRun => exact k.cmdHaltRun s h
    | takeResult => exact k.cmdTakeResult s h
    | feedForwardOn => exact k.cmdFeedForwardOn s h
    | feedForwardOff => exact k.cmdFeedForwardOff s h
    | readExclusions => exact k.cmdReadExclusions s h
    | readPermissions => exact k.cmdReadPermissions s h
    | readCaptureCounts => exact k.cmdReadCaptureCounts s h
    | readIdentity => exact k.cmdReadIdentity s h
    | readSettings => exact k.cmdReadSettings s h
    | setGeometry => exact h
    | fill => exact h
    | setWindow => exact h
    | setAccessOrder => exact h
    | streamMap => exact h
    | publishNow => exact h
    | enqueueRun => exact h
    | cancelQueued => exact h
    | excludeWedge => exact h
    | includeWedge => exact h
    | clearExclusions => exact h
    | setPermissions => exact h
    | readMonitor => exact h
    | setSetting => exact h
    | setHeadGain => exact h
    | setHeadOptions => exact h
    | clearEvents => exact h
    | setEventEnables => exact h
    | selectUnit => exact h

theorem WordsKeep.commandArrives {P : State → Prop} (k : WordsKeep P) (s : State) (h : P s) : P s.commandArrives :=
  k.endAssembly _ (k.takeClaimedRead s h)

theorem WordsKeep.commandSelected {P : State → Prop} (k : WordsKeep P) (s : State) (own : State → State)
    (ho : ∀ s, P s → P (own s)) (h : P s) : P (s.commandSelected own) := by
  unfold State.commandSelected
  split
  · exact ho _ (k.commandArrives s h)
  · split
    · exact k.commandArrives s h
    · exact h

theorem WordsKeep.commandBoth {P : State → Prop} (k : WordsKeep P) (s : State) (own : State → State)
    (ho : ∀ s, P s → P (own s)) (h : P s) : P (s.commandBoth own) := ho _ (k.commandArrives s h)

theorem WordsKeep.command {P : State → Prop} (k : WordsKeep P) (s : State) (code : CmdCode) (own : State → State)
    (ho : ∀ s, P s → P (own s)) (h : P s) : P (s.command code own) := by
  unfold State.command
  split
  · exact k.commandBoth s own ho h
  · exact k.commandSelected s own ho h

theorem KeptBy.commandWord {P : State → Prop} (k : KeptBy P) (s : State) (w : Word) (h : P s) : P (s.commandWord w) := by
  unfold State.commandWord
  split
  · exact k.commandSelected s _ (fun s h => k.judged s _ (k.refuse s _) h) h
  · split
    · exact k.command s _ _ (fun s h => k.perform s _ _ h) h
    · exact k.command s _ _ (fun s h => k.assembly s _ h) h

theorem WordsKeep.parameterWord {P : State → Prop} (k : WordsKeep P) (s : State) (w : Word) (h : P s) :
    P (s.parameterWord w) := by
  have h1 := k.takeClaimedRead s h
  unfold State.parameterWord
  split
  · dsimp only
    split
    · exact h1
    · unfold State.assembleWord
      split
      · exact k.assembly _ _ h1
      · rename_i code ps _ _
        cases ps with
        | nil => exact k.performParams _ code w [] (k.assembly _ _ h1)
        | cons p ps => exact k.performParams _ code p (ps ++ [w]) (k.assembly _ _ h1)
    · exact k.dataWord _ _ _ h1
  · exact h

theorem KeptBy.writeStrobe {P : State → Prop} (k : KeptBy P) (s : State) (select : BitVec 2) (w : Word) (h : P s) :
    P (s.writeStrobe select w) := by
  unfold State.writeStrobe
  split
  · exact k.commandWord s w h
  · exact k.parameterWord s w h
  · exact h

/-- A property that the operations of single words keep is kept by a well-formed write strobe. -/
theorem WordsKeep.writeStrobe {P : State → Prop} (k : WordsKeep P) (s : State) (select : BitVec 2) (w : Word)
    (hw : benchWordWellFormed select w = true) (h : P s) : P (s.writeStrobe select w) := by
  unfold State.writeStrobe
  split
  · rename_i hs
    have hs : select = 0 := BitVec.eq_of_toNat_eq hs
    rw [benchWordWellFormed, if_pos hs] at hw
    unfold State.commandWord
    split
    · exact k.commandSelected s _ (fun s h => k.judged s _ (k.refuse s _) h) h
    · rename_i code hc
      rw [hc] at hw
      rw [if_neg (by simpa using hw)]
      exact k.command s _ _ (fun s h => k.assembly s _ h) h
  · exact k.parameterWord s w h
  · exact h

/-- A property that the operations of single words keep is kept by a command word that names no command. -/
theorem WordsKeep.unknownWord {P : State → Prop} (k : WordsKeep P) (s : State) (w : Word)
    (hw : unknownWordWellFormed w = true) (h : P s) : P (s.commandWord w) := by
  unfold State.commandWord
  split
  · exact k.commandSelected s _ (fun s h => k.judged s _ (k.refuse s _) h) h
  · rename_i code hc
    rw [unknownWordWellFormed, hc] at hw
    exact absurd hw (by simp)

/-- A property that every operation keeps is kept by every step of the part. -/
theorem KeptBy.exec {P : State → Prop} (k : KeptBy P) {i : Instr} {s t : State} (h : P s) (he : exec i s = .next t) :
    P t := by
  cases i with
  | captureWord b w => cases he; exact k.captureWord s b w h
  | indexEvent => cases he; exact k.index s h
  | indexTimerExpiry => cases he; exact k.timerExpiry s h
  | runStart => cases he; exact k.runStart s h
  | learningTakeRecord => cases he; exact k.takeRecord s h
  | learningOperation => cases he; exact k.learning s h
  | autoExclusion => cases he; exact k.autoExclusion s h
  | ffRequest w => cases he; exact k.request s w h
  | ffOperation => cases he; exact k.reply s h
  | ffReplyStrobe b => cases he; exact k.replyStrobe s b h
  | sweepStep => cases he; exact k.sweepStep s h
  | powerOnReset b => cases he; exact k.powerOn s b h
  | memoryTestEnd r => cases he; exact k.memoryTest s r h
  | secondaryPresentAssert => cases he; exact k.assertPresent s h
  | presentSeen => cases he; exact k.seePresent s h
  | presenceWindowExpiry => cases he; exact k.closePresence s h
  | passedSeen => cases he; exact k.seePassed s h
  | pairWaitExpiry => cases he; exact k.pairTimeout s h
  | returnQueueRead => cases he; exact k.returnQueueRead s h
  | streamMapItemRead =>
    cases he
    unfold State.grantStreamRead
    split
    · exact h
    · exact k.streamRead s h
  | statusReadAcknowledge => cases he; exact k.statusRead s h
  | benchParameterWord select w => cases he; exact k.writeStrobe s select w h
  | mapDataWord w => cases he; exact k.parameterWord s w h
  | unknownCommand w => cases he; exact k.commandWord s w h
  | null => cases he; exact k.commandSelected s _ (fun s h => k.cmdNull s h) h
  | selectUnit u => cases he; exact k.commandBoth s _ (fun s h => k.cmdSelectUnit s u h) h
  | selfTest b => cases he; exact k.commandBoth _ _ (fun s h => k.cmdSelfTest s h) (k.strap s b h)
  | unitReset => cases he; exact k.commandSelected s _ (fun s h => k.cmdUnitReset s h) h
  | haltStream => cases he; exact k.commandSelected s _ (fun s h => k.cmdHaltStream s h) h
  | setGeometry heads wedges => cases he; exact k.commandSelected s _ (fun s h => k.cmdSetGeometry s heads wedges h) h
  | fill value state => cases he; exact k.commandSelected s _ (fun s h => k.cmdFill s value state h) h
  | setWindow a b c d => cases he; exact k.commandSelected s _ (fun s h => k.cmdSetWindow s a b c d h) h
  | setAccessOrder a b c => cases he; exact k.commandSelected s _ (fun s h => k.cmdSetAccessOrder s a b c h) h
  | writeMap => cases he; exact k.commandSelected s _ (fun s h => k.cmdWriteMap s h) h
  | writeMapContinue => cases he; exact k.commandSelected s _ (fun s h => k.cmdWriteMapContinue s h) h
  | readMapItem => cases he; exact k.commandSelected s _ (fun s h => k.cmdReadMapItem s h) h
  | streamMap n => cases he; exact k.commandSelected s _ (fun s h => k.cmdStreamMap s n h) h
  | publishNow hs => cases he; exact k.commandSelected s _ (fun s h => k.cmdPublishNow s hs h) h
  | enqueueRun w1 w2 w3 w4 w5 w6 w7 =>
    cases he; exact k.commandSelected s _ (fun s h => k.cmdEnqueueRun s w1 w2 w3 w4 w5 w6 w7 h) h
  | cancelQueued tag => cases he; exact k.commandSelected s _ (fun s h => k.cmdCancelQueued s tag h) h
  | haltRun => cases he; exact k.commandSelected s _ (fun s h => k.cmdHaltRun s h) h
  | takeResult => cases he; exact k.commandSelected s _ (fun s h => k.cmdTakeResult s h) h
  | feedForwardOn => cases he; exact k.commandSelected s _ (fun s h => k.cmdFeedForwardOn s h) h
  | feedForwardOff => cases he; exact k.commandSelected s _ (fun s h => k.cmdFeedForwardOff s h) h
  | excludeWedge a b => cases he; exact k.commandSelected s _ (fun s h => k.cmdExclude s a b h) h
  | includeWedge a b => cases he; exact k.commandSelected s _ (fun s h => k.cmdInclude s a b h) h
  | clearExclusions hs => cases he; exact k.commandSelected s _ (fun s h => k.cmdClearExclusions s hs h) h
  | readExclusions => cases he; exact k.commandSelected s _ (fun s h => k.cmdReadExclusions s h) h
  | setPermissions a b c => cases he; exact k.commandSelected s _ (fun s h => k.cmdSetPermissions s a b c h) h
  | readPermissions => cases he; exact k.commandSelected s _ (fun s h => k.cmdReadPermissions s h) h
  | readMonitor a => cases he; exact k.commandSelected s _ (fun s h => k.cmdReadMonitor s a h) h
  | readCaptureCounts => cases he; exact k.commandSelected s _ (fun s h => k.cmdReadCaptureCounts s h) h
  | readIdentity => cases he; exact k.commandSelected s _ (fun s h => k.cmdReadIdentity s h) h
  | readSettings => cases he; exact k.commandSelected s _ (fun s h => k.cmdReadSettings s h) h
  | setSetting a b => cases he; exact k.commandSelected s _ (fun s h => k.cmdSetSetting s a b h) h
  | setHeadGain a b => cases he; exact k.commandSelected s _ (fun s h => k.cmdSetHeadGain s a b h) h
  | setHeadOptions a b c d => cases he; exact k.commandSelected s _ (fun s h => k.cmdSetHeadOptions s a b c d h) h
  | clearEvents m => cases he; exact k.commandSelected s _ (fun s h => k.cmdClearEvents s m h) h
  | setEventEnables m => cases he; exact k.commandSelected s _ (fun s h => k.cmdSetEventEnables s m h) h
  | presentRelease => cases he; exact k.presentRelease s h

/-- A property that every operation keeps is kept by the block's step. -/
theorem KeptBy.step {P : State → Prop} (k : KeptBy P) {s t : State} (h : P s) (hs : step s = .next t) : P t := by
  unfold Sys2Proof.Machine.step at hs
  split at hs
  · cases hs; exact k.publishNext s h
  · exact k.exec (k.queue s _ h) hs

end Sys2Proof.Machine
end

