-- ==== Sys2Proof/Laws/Map.lean ====
section
/-! SUPPORT. What the map's writes do to a read of a cell, and that each of them keeps the canonical form. -/

namespace Sys2Proof.Machine

theorem mapWf_iff (m : PerHead (Sparse Cell)) :
    mapWf m = true ↔ ∀ h : Head, Sparse.wf Cell.blank Config.gridWedges (m.get h) = true := by
  simp only [mapWf, List.all_eq_true]
  exact ⟨fun hm h => hm h (mem_allHeads h), fun hm h _ => hm h⟩

theorem rising_of_mapWf {m : PerHead (Sparse Cell)} (hm : mapWf m = true) (h : Head) : Sparse.rising (m.get h) :=
  ((Sparse.wf_iff _ _ _).mp ((mapWf_iff m).mp hm h)).1

/-- The map with nothing listed is canonical: so is the one at reset. -/
theorem mapWf_all_nil : mapWf (PerHead.all []) = true := by
  rw [mapWf_iff]; intro h; simp

/-- A cell at or above the grid's wedges reads as the power-on cell. -/
theorem cell_of_ge {s : State} (hm : mapWf s.map = true) (h : Head) {w : Nat} (hw : Config.gridWedges ≤ w) :
    s.cell h w = Cell.blank := by
  refine Sparse.get_of_not_mem _ _ _ fun p hp => ?_
  have := (((Sparse.wf_iff _ _ _).mp ((mapWf_iff _).mp hm h)).2 p hp).1
  omega

/-! ### One cell -/

/-- A write of one cell of the grid keeps the canonical form. -/
theorem mapWf_modifyCellOf {m : PerHead (Sparse Cell)} (hm : mapWf m = true) (h : Head) {w : Nat}
    (hw : w < Config.gridWedges) (f : Cell → Cell) : mapWf (modifyCellOf m h w f) = true := by
  rw [mapWf_iff] at hm ⊢
  intro k
  by_cases hk : k = h
  · subst hk
    rw [modifyCellOf, PerHead.get_set_same]
    exact Sparse.wf_set _ _ _ (hm k) w hw _
  · rw [modifyCellOf, PerHead.get_set_other _ _ hk]
    exact hm k

/-- A read of the map after a write of one cell. -/
theorem get_modifyCellOf {m : PerHead (Sparse Cell)} (hm : mapWf m = true) (h : Head) (w : Nat) (f : Cell → Cell)
    (k : Head) (v : Nat) :
    Sparse.get Cell.blank ((modifyCellOf m h w f).get k) v
      = if k = h ∧ v = w then f (Sparse.get Cell.blank (m.get h) w) else Sparse.get Cell.blank (m.get k) v := by
  by_cases hk : k = h
  · subst hk
    rw [modifyCellOf, PerHead.get_set_same, Sparse.get_set _ _ (rising_of_mapWf hm k)]
    by_cases hv : v = w <;> simp [hv]
  · rw [modifyCellOf, PerHead.get_set_other _ _ hk, if_neg (fun hc => hk hc.1)]

/-- A read of a cell after one cell was changed. -/
theorem cell_modifyCell {s : State} (hm : mapWf s.map = true) (h : Head) (w : Nat) (f : Cell → Cell) (k : Head)
    (v : Nat) : (s.modifyCell h w f).cell k v = if k = h ∧ v = w then f (s.cell h w) else s.cell k v :=
  get_modifyCellOf hm h w f k v

/-! ### Whole rows -/

/-- A change of whole rows leaves each changed row canonical. -/
theorem mapWf_updateRows {m : PerHead (Sparse Cell)} (hm : mapWf m = true) (p : Head → Bool)
    (f : Head → Nat → Cell → Cell) : mapWf (updateRows m p f) = true := by
  rw [mapWf_iff] at hm ⊢
  intro k
  rw [updateRows, PerHead.get_ofFn]
  split
  · exact Sparse.wf_update _ _ _ _
  · exact hm k

/-- A change of every row is canonical whatever stood there. -/
theorem mapWf_updateRows_all (m : PerHead (Sparse Cell)) (f : Head → Nat → Cell → Cell) :
    mapWf (updateRows m (fun _ => true) f) = true := by
  rw [mapWf_iff]
  intro k
  rw [updateRows, PerHead.get_ofFn, if_pos rfl]
  exact Sparse.wf_update _ _ _ _

/-- A read of the map after a change of whole rows. -/
theorem get_updateRows (m : PerHead (Sparse Cell)) (p : Head → Bool) (f : Head → Nat → Cell → Cell) (k : Head)
    (v : Nat) :
    Sparse.get Cell.blank ((updateRows m p f).get k) v
      = if p k then
          (if v < Config.gridWedges then f k v (Sparse.get Cell.blank (m.get k) v) else Cell.blank)
        else Sparse.get Cell.blank (m.get k) v := by
  rw [updateRows, PerHead.get_ofFn]
  split
  · rw [Sparse.get_update]
  · rfl

/-! ### The shared operations on cells -/

theorem cell_enterExclusion {s : State} (hm : mapWf s.map = true) (h : Head) (w : Nat) (k : Head) (v : Nat) :
    (s.enterExclusion h w).cell k v
      = if k = h ∧ v = w then { s.cell h w with state := .excluded } else s.cell k v := by
  unfold State.cell
  rw [State.enterExclusion_map, get_modifyCellOf hm]

theorem cell_emptyExclusions (s : State) (k : Head) (v : Nat) :
    s.emptyExclusions.cell k v = if v < Config.gridWedges then (s.cell k v).unexcluded else Cell.blank := by
  unfold State.cell
  rw [State.emptyExclusions_map, get_updateRows, if_pos rfl]

theorem cell_conclude (s : State) (ctx : RunCtx) (o : RunOutcome) (c : RunCause) (gains : PerHead GainResult)
    (k : Head) (v : Nat) :
    (s.conclude ctx o c gains).cell k v
      = if ctx.heads.get k then
          (if v < Config.gridWedges then (if v < s.settings.wedges then (s.cell k v).clearSums else s.cell k v)
           else Cell.blank)
        else s.cell k v := by
  unfold State.cell
  rw [State.conclude_map, get_updateRows]
  rfl

/-- The publication of one head writes the cells of its configured wedges and no other (R74, R75). -/
theorem cell_publishHead {s : State} (hm : mapWf s.map = true) (hw : s.settings.wedges ≤ Config.gridWedges) (d : DueHead)
    (k : Head) (v : Nat) :
    (s.publishHead d).cell k v
      = if k = d.head ∧ k.val < s.settings.headsInstalled ∧ v < s.settings.wedges then (s.cell k v).publish d.rev
        else s.cell k v := by
  unfold State.publishHead
  by_cases hi : d.head.val < s.settings.headsInstalled
  · rw [if_pos hi]
    show Sparse.get Cell.blank ((updateRows s.map _ _).get k) v = _
    rw [get_updateRows]
    by_cases hk : k = d.head
    · subst hk
      by_cases hv : v < Config.gridWedges
      · by_cases hvw : v < s.settings.wedges <;> simp [hv, hvw, hi, belowW, State.cell]
      · have hb := cell_of_ge hm d.head (w := v) (by omega)
        rw [if_pos (by simp), if_neg hv, if_neg (by omega), hb]
    · simp [hk, State.cell]
  · rw [if_neg hi, if_neg]
    rintro ⟨rfl, h, -⟩
    exact hi h

/-- The publication of one head leaves every other head alone (R75). -/
theorem publishHead_other {d : DueHead} {k : Head} (hk : k ≠ d.head) (s : State) :
    (s.publishHead d).map.get k = s.map.get k ∧ (s.publishHead d).profiles.get k = s.profiles.get k := by
  unfold State.publishHead
  split
  · exact ⟨by simp [updateRows, PerHead.get_ofFn, hk], by simp [PerHead.modify, hk]⟩
  · exact ⟨rfl, rfl⟩

/-- What the publication of a head leaves of it depends on that head's row and profile and on the settings alone (R75). -/
theorem publishHead_congr {s t : State} {d : DueHead} (hm : s.map.get d.head = t.map.get d.head)
    (hp : s.profiles.get d.head = t.profiles.get d.head) (hs : s.settings = t.settings) :
    (s.publishHead d).map.get d.head = (t.publishHead d).map.get d.head
      ∧ (s.publishHead d).profiles.get d.head = (t.publishHead d).profiles.get d.head := by
  have ho : s.newOffset d.head = t.newOffset d.head := by
    simp only [State.newOffset, State.goodWedges, State.cell, hm, hs]; rfl
  unfold State.publishHead
  rw [hs]
  split
  · exact ⟨by simp [updateRows, PerHead.get_ofFn, hm], by simp [PerHead.modify, hp, ho]⟩
  · exact ⟨hm, hp⟩

/-- The publications of other heads leave a head alone (R74). -/
theorem publications_other {l : List DueHead} {k : Head} (hk : ∀ d ∈ l, d.head ≠ k) (s : State) :
    (l.foldl State.publishHead s).map.get k = s.map.get k
      ∧ (l.foldl State.publishHead s).profiles.get k = s.profiles.get k := by
  induction l generalizing s with
  | nil => exact ⟨rfl, rfl⟩
  | cons d l ih =>
    have h1 := ih (fun e he => hk e (List.mem_cons_of_mem _ he)) (s.publishHead d)
    have h2 := publishHead_other (hk d List.mem_cons_self).symm s
    exact ⟨h1.1.trans h2.1, h1.2.trans h2.2⟩

/-- The publications of a list with no head twice leave of a head that it names what that head's own publication does (R74). -/
theorem publications_of_mem {l : List DueHead} (hl : (l.map DueHead.head).Nodup) {d : DueHead} (hd : d ∈ l) (s : State) :
    (l.foldl State.publishHead s).map.get d.head = (s.publishHead d).map.get d.head
      ∧ (l.foldl State.publishHead s).profiles.get d.head = (s.publishHead d).profiles.get d.head := by
  induction l generalizing s with
  | nil => cases hd
  | cons e l ih =>
    rw [List.map_cons, List.nodup_cons] at hl
    rcases List.mem_cons.mp hd with rfl | hd
    · exact publications_other (fun x hx hc => hl.1 (List.mem_map.mpr ⟨x, hx, hc⟩)) _
    · have hne : d.head ≠ e.head := fun hc => hl.1 (List.mem_map.mpr ⟨d, hd, hc⟩)
      have h1 := ih hl.2 hd (s.publishHead e)
      have h2 := publishHead_other hne s
      have h3 := publishHead_congr h2.1 h2.2 (State.publishHead_settings s e)
      exact ⟨h1.1.trans h3.1, h1.2.trans h3.2⟩

/-- Publications keep the map canonical. -/
theorem mapWf_publications (l : List DueHead) {s : State} (h : mapWf s.map = true) :
    mapWf (l.foldl State.publishHead s).map = true := by
  induction l generalizing s with
  | nil => exact h
  | cons d l ih =>
    apply ih
    unfold State.publishHead
    split
    · exact mapWf_updateRows h _ _
    · exact h

/-- Publications change of a cell its published correction, its effective revolution and its dirty mark alone (R75). -/
theorem publications_cell (l : List DueHead) {s : State} (h : mapWf s.map = true)
    (hw : s.settings.wedges ≤ Config.gridWedges) (k : Head) (v : Nat) :
    ∃ p r d, (l.foldl State.publishHead s).cell k v = { s.cell k v with published := p, effRev := r, dirty := d } := by
  induction l generalizing s with
  | nil => exact ⟨_, _, _, rfl⟩
  | cons e l ih =>
    obtain ⟨p, r, d, hc⟩ := ih (s := s.publishHead e) (mapWf_publications [e] h) (by simpa using hw)
    rw [List.foldl_cons, hc, cell_publishHead h hw]
    split
    · exact ⟨p, r, d, rfl⟩
    · exact ⟨p, r, d, rfl⟩

end Sys2Proof.Machine
end

