-- ==== Sys2Proof/Laws/Ops.lean ====
section
/-! SUPPORT. Lemmas about the shared operations: what each can do, said once. -/

namespace Sys2Proof.Machine

/-! ### Commands and the words that carry them -/

/-- A command of the link other than Self-Test is taken by the units that take it, and performed on its parameter
    words. -/
theorem exec_command {i : Instr} {code : CmdCode} {ps : List Word} (h : i.linkWords = some (code, ps))
    (hc : code ≠ .selfTest) (s : State) :
    exec i s = .next (s.command code fun s => s.perform code ps) := by
  cases i <;> simp only [Instr.linkWords, reduceCtorEq, Option.some.injEq, Prod.mk.injEq] at h <;> obtain ⟨rfl, rfl⟩
      := h <;>
    first | rfl | exact absurd rfl hc

/-- A command carries as many parameter words as its code asks for (12.5). -/
theorem linkWords_length {i : Instr} {code ps} (hl : i.linkWords = some (code, ps)) : ps.length = code.paramCount := by
  cases i <;> simp only [Instr.linkWords, reduceCtorEq, Option.some.injEq, Prod.mk.injEq] at hl <;> obtain
      ⟨rfl, rfl⟩ := hl <;> rfl

/-- The code of a command names it (12.5). -/
theorem ofWord_code (c : CmdCode) : CmdCode.ofWord c.code = some c := by cases c <;> rfl

/-- With no stream read claimed there is none to complete. -/
theorem completeStreamRead_of_no_read {s : State} (h : ∀ left crc, s.bench.stream ≠ some
    { kind := .map left crc, words := [] }) :
    s.completeStreamRead = s := by
  unfold State.completeStreamRead
  split
  · rename_i hh; exact absurd hh (h _ _)
  · rfl

/-- After a command word has arrived nothing is in assembly (R180). -/
theorem endAssembly_idle (s : State) : s.endAssembly.bench.assembly = .idle := by
  unfold State.endAssembly
  split
  · assumption
  · rfl
  · unfold State.endData; (repeat' split) <;> rfl

/-- With no stream read claimed none is waited for (R180). -/
theorem takeClaimedRead_of_no_read {s : State} (h : ∀ left crc, s.bench.stream ≠ some
    { kind := .map left crc, words := [] }) : s.takeClaimedRead = s := by
  have hw : s.streamReadWaiting = false := by
    unfold State.streamReadWaiting
    split
    · rename_i hh; exact absurd hh (h _ _)
    · rfl
  rw [State.takeClaimedRead, hw]; rfl

/-- With nothing in assembly and no stream read claimed a command word ends nothing (R180). -/
theorem commandArrives_of_idle {s : State} (ha : s.bench.assembly = .idle)
  (h : ∀ left crc, s.bench.stream ≠ some { kind := .map left crc, words := [] }) : s.commandArrives = s := by
  rw [State.commandArrives, takeClaimedRead_of_no_read h, State.endAssembly, ha]

/-- With no claim of the Feed-Forward Server or of the Learning Engine waiting none is granted ahead of the link (R19). -/
theorem claimsAhead_of_none {s : State} (h : ∀ q, s.ff.server ≠ .forming q) (hh : s.held = none) : s.claimsAhead = s := by
  have hf : s.formReply = s := by
    unfold State.formReply
    split
    · rfl
    · rfl
    · rename_i hq; exact absurd hq (h _)
  rw [State.claimsAhead, hf, State.grantLearning, hh]
  split <;> rfl

/-- The selected unit takes every command (R187). -/
theorem command_of_selected {s : State} (h : s.bench.selected = s.startup.unitNo) (code own) : s.command code own =
    own s.commandArrives := by
  simp [State.command, State.commandSelected, State.commandBoth, State.isSelected, h]

/-- A write strobe with select 1 is a parameter word (R178). -/
theorem exec_parameter_strobe (w : Word) (s : State) : exec (.benchParameterWord 1 w) s = .next (s.parameterWord w)
    := rfl

/-- A write strobe with select 0 is a command word (R178). -/
theorem exec_command_strobe (w : Word) (s : State) : exec (.benchParameterWord 0 w) s = .next (s.commandWord w) :=
    rfl

/-- With no stream in progress no stream read is claimed. -/
theorem LinkOpen_no_read {s : State} (ho : s.LinkOpen) :
    (∀ left crc, s.bench.stream ≠ some { kind := .map left crc, words := [] }) := by
  intro l c hh; rw [ho.stream] at hh; cases hh

/-- On an open link a command is judged on its own terms (R181). -/
theorem judged_of_open {s : State} (ho : s.LinkOpen) (own) : s.judged own = own s := by
  unfold State.judged; rw [if_neg ho.unit, ho.stream]; rfl

/-- On an open link a command other than Self-Test is performed. -/
theorem exec_of_open {s : State} (ho : s.LinkOpen) {i : Instr} {code ps} (hl : i.linkWords = some (code, ps))
    (h : code ≠ .selfTest) :
   exec i s = .next (s.perform code ps) := by
  rw [exec_command hl h, command_of_selected ho.selected, commandArrives_of_idle ho.assembly (LinkOpen_no_read ho)]

/-- In the selected unit, with nothing in assembly and no stream read claimed, a command other than Self-Test is
    performed. -/
theorem exec_of_selected {s : State} (hs : s.bench.selected = s.startup.unitNo) (ha : s.bench.assembly = .idle)
   (hst : ∀ left crc, s.bench.stream ≠ some { kind := .map left crc, words := [] }) {i : Instr} {code ps}
       (hl : i.linkWords = some (code, ps)) (h : code ≠ .selfTest) :
   exec i s = .next (s.perform code ps) := by
  rw [exec_command hl h, command_of_selected hs, commandArrives_of_idle ha hst]

/-- Windowed map access is judged on its own terms in a Ready unit with no sweep (R167, R170). -/
theorem judgedAccess_of_open {s : State} (ho : s.MapOpen) (own) : s.judgedAccess own = own s := by
  unfold State.judgedAccess
  rw [judged_of_open ho.link, if_neg]
  simp [State.busy, ho.sweep, ho.unit]

/-- When the unit drives the link (R179, R188). -/
theorem drivesLink_iff (s : State) : s.drivesLink = true ↔ s.bench.selected = s.startup.unitNo ∧
    (s.startup.unitNo = 0 ∨ s.startup.presLine = true) := by
  simp [State.drivesLink]

/-! ### Words, queues and streams -/

/-- The flags of a set with another taken away. -/
theorem Kinds.get_minus (a b : Kinds) (k) : (a.minus b).get k = (a.get k && !b.get k) := by cases k <;> rfl

/-- When the Return Queue has room for every word. -/
theorem noRoomFor_eq_nil (q ws : List Word) : noRoomFor q ws = [] ↔ ws.length ≤ 4 - q.length := by
  simp [noRoomFor, Config.returnQueueDepth]

/-- A stream places the words there is room for and waits with the rest (R171). -/
theorem pump_of_full {s : State} {k ws} (hs : s.bench.stream = some { kind := k, words := ws })
    (h : 4 - s.bench.returnQueue.length < ws.length) :
    s.pump = { s with bench := { s.bench with
      returnQueue := s.bench.returnQueue ++ ws.take (4 - s.bench.returnQueue.length)
      stream := some { kind := k, words := ws.drop (4 - s.bench.returnQueue.length) } } } := by
  unfold State.pump; rw [hs]; dsimp only
  rw [if_pos (by rw [ne_eq, noRoomFor_eq_nil]; omega)]; rfl

/-- What a readout leaves of the Return Queue and the stream (R171). -/
theorem startStream_copy (s : State) (ws : List Word) : s.accept.startStream .copy ws = s.streaming ws := by
  unfold State.startStream
  by_cases h : 4 - s.bench.returnQueue.length < ws.length
  · rw [pump_of_full (s := { s.accept with bench :=
        { s.accept.bench with stream := some { kind := .copy, words := ws } } }) (k := .copy) (ws := ws) rfl h]
    unfold State.streaming
    rw [if_neg (by omega)]
    rfl
  · have hr : noRoomFor s.bench.returnQueue ws = [] := (noRoomFor_eq_nil _ _).2 (by omega)
    unfold State.pump
    show (if noRoomFor s.bench.returnQueue ws ≠ [] then _ else _) = _
    rw [if_neg (by simp [hr])]
    unfold State.streaming
    rw [if_pos (by omega)]
    rfl

/-- The bits of two sets of heads in one word. -/
theorem getLsbD_mask_pair (t : PerHead Bool) (u : PerHead Bool) (h : Head) :
   (wordOf (HeadSet.mask t + 256 * HeadSet.mask u)).getLsbD h.val = t.get h ∧
       (wordOf (HeadSet.mask t + 256 * HeadSet.mask u)).getLsbD (8 + h.val) = u.get h := by
  have ht : HeadSet.mask t < 256 := by
    obtain ⟨a0, a1, a2, a3, a4, a5, a6, a7⟩ := t
    cases a0 <;> cases a1 <;> cases a2 <;> cases a3 <;> cases a4 <;> cases a5 <;> cases a6 <;> cases a7 <;> decide
  have hu : HeadSet.mask u < 256 := by
    obtain ⟨a0, a1, a2, a3, a4, a5, a6, a7⟩ := u
    cases a0 <;> cases a1 <;> cases a2 <;> cases a3 <;> cases a4 <;> cases a5 <;> cases a6 <;> cases a7 <;> decide
  have hb : ∀ (t : PerHead Bool) (h : Head), (HeadSet.mask t).testBit h.val = t.get h := by
    clear * -
    intro t h
    obtain ⟨a0, a1, a2, a3, a4, a5, a6, a7⟩ := t
    cases a0 <;> cases a1 <;> cases a2 <;> cases a3 <;> cases a4 <;> cases a5 <;> cases a6 <;> cases a7 <;> revert h
        <;> decide
  have hh := h.isLt
  unfold wordOf
  rw [BitVec.getLsbD_ofNat, BitVec.getLsbD_ofNat]
  rw [show HeadSet.mask t + 256 * HeadSet.mask u = 2 ^ 8 * HeadSet.mask u + HeadSet.mask t by ring]
  rw [Nat.testBit_two_pow_mul_add _ (by omega : HeadSet.mask t < 2 ^ 8), Nat.testBit_two_pow_mul_add _
      (by omega : HeadSet.mask t < 2 ^ 8)]
  rw [if_pos (by omega), if_neg (by omega), show 8 + h.val - 8 = h.val by omega, hb, hb]
  simp; constructor <;> intro <;> omega

/-- The bits of a set of event kinds (12.8). -/
theorem getLsbD_kinds_word (k : Kinds) : (List.range 16).map (fun i => k.word.getLsbD i) =
    [Kind.runEnded, .revolution, .captureOverrun, .returnLost, .commandRefused, .importMismatch, .exclusionFull,
              .spindleLost, .pairFault, .startupDone].map k.get ++ List.replicate 6 false := by
  obtain ⟨a0, a1, a2, a3, a4, a5, a6, a7, a8, a9⟩ := k
  cases a0 <;> cases a1 <;> cases a2 <;> cases a3 <;> cases a4 <;> cases a5 <;> cases a6 <;> cases a7 <;> cases a8
      <;> cases a9 <;> rfl

/-- A reply word carries its twelve-bit value and its four low bits (12.4). -/
theorem reply_word_fields (x : Int) (h : withinRange x) (k : Nat) (hk : k < 16) :
    (wordOf ((BitVec.ofInt 12 x).toNat * 16 + k)).toInt / 16 = x ∧
    (wordOf ((BitVec.ofInt 12 x).toNat * 16 + k)).toNat % 16 = k := by
  unfold withinRange at h
  have e : ((BitVec.ofInt 12 x).toNat : Int) = x % 4096 := by
    simp [BitVec.toNat_ofInt]; omega
  unfold wordOf
  have e2 : (BitVec.ofNat 16 ((BitVec.ofInt 12 x).toNat * 16 + k)).toNat = (BitVec.ofInt 12 x).toNat * 16 + k := by
    simp only [BitVec.toNat_ofNat]; omega
  refine ⟨?_, ?_⟩
  · rw [BitVec.toInt_eq_toNat_cond, e2]
    split <;> push_cast <;> omega
  · rw [e2]; omega

/-- The first good wedge of a walk. -/
theorem find_first_good (f : Nat → Nat) (p : Nat → Bool) (n : Nat) (i : Nat) (h1 : 1 ≤ i) (h2 : i < n + 1)
    (hp : p (f i) = true) (hn : ∀ k, 1 ≤ k → k < i → p (f k) = false) :
   ((List.range n).map fun j => f (j + 1)).find? p = some (f i) := by
  rw [List.find?_eq_some_iff_getElem]
  refine ⟨hp, i - 1, by simp; omega, ?_, ?_⟩
  · simp; congr; omega
  · intro j hj; simp; exact hn (j + 1) (by omega) (by omega)

/-- The injection of a head, and whether there is one (R135). -/
theorem injection_eq (s : State) (h : Head) :
   ((s.injection h).getD 0 = match s.runs.active with
              | none => 0
              | some c =>
                if c.heads.get h = false then 0
                else match c.injection with | .off => 0 | .plus => c.desc.step | .minus => -(c.desc.step : Int)) ∧
   ((s.injection h).isSome = match s.runs.active with
                | none => false
                | some c => c.heads.get h && c.injection != .off) := by
  unfold State.injection
  cases s.runs.active with
  | none => exact ⟨rfl, rfl⟩
  | some c =>
    dsimp only
    cases c.heads.get h <;> cases c.injection <;> exact ⟨rfl, rfl⟩

/-! ### Index events, publications and the Learning Engine -/

/-- Publications look at neither the index nor the runs. -/
theorem publications_index_runs (l : List DueHead) (s : State) (x : IndexUnit) (y : RunController) :
    l.foldl State.publishHead { s with index := x, runs := y }
      = { l.foldl State.publishHead s with index := x, runs := y } := by
  induction l generalizing s with
  | nil => rfl
  | cons d l ih =>
    have h : State.publishHead { s with index := x, runs := y } d = { s.publishHead d with index := x, runs := y } := by
      unfold State.publishHead; dsimp only; split <;> rfl
    rw [List.foldl_cons, List.foldl_cons, h, ih]

/-- With no publication to come there is none to complete. -/
theorem publishAll_of_none {s : State} (h : s.publishing = []) : s.publishAll = s := by
  unfold State.publishAll; rw [h]; cases s; simp only at h; subst h; rfl

/-- The publications of the index before look at neither the index nor the runs. -/
theorem publishAll_index_runs (s : State) (x : IndexUnit) (y : RunController) :
    State.publishAll { s with index := x, runs := y } = { s.publishAll with index := x, runs := y } :=
  publications_index_runs s.publishing { s with publishing := [] } x y

/-- The publications an index makes look at neither the index nor the runs. -/
theorem publishDue_index_runs (s : State) (due : List DueHead) (x : IndexUnit) (y : RunController) :
    State.publishDue { s with index := x, runs := y } due = { s.publishDue due with index := x, runs := y } :=
  publications_index_runs _ { s with publishing := _, publishAtOnce := _ } x y

/-- The Publication Unit's part of an index: the publications of the index before, then its own (R74). -/
def State.publications (s : State) : State :=
  s.publishAll.publishDue (s.publishAll.dueHeads (s.index.rev + 1))

/-- The Publication Unit looks at neither the timer nor the runs. -/
theorem publications_runs (s : State) (y : RunController) :
    State.publications { s with runs := y } = { s.publications with runs := y } := by
  unfold State.publications
  rw [show State.publishAll { s with runs := y } = { s.publishAll with index := s.index, runs := y } from
    publishAll_index_runs s s.index y]
  rw [show State.dueHeads { s.publishAll with index := s.index, runs := y } = s.publishAll.dueHeads from rfl,
    publishDue_index_runs]
  have h : (s.publishAll.publishDue (s.publishAll.dueHeads (s.index.rev + 1))).index = s.index := by simp
  dsimp only
  generalize s.publishAll.publishDue (s.publishAll.dueHeads (s.index.rev + 1)) = t at h ⊢
  rw [← h]

/-- An index completes the waiting publications, makes its own and steps the run (R56, R74). -/
theorem takeIndex_eq (s : State) :
    s.takeIndex = State.raise (State.runIndex { s.publications with
      index := { rev := s.index.rev + 1
                 timer := if s.runs.active.isSome then some s.settings.indexTimeout else s.index.timer }
      runs := s.runs } (s.index.rev + 1)) .revolution := by
  have h : s.publishAll.advanceRev = { s.publishAll with
      index := { rev := s.index.rev + 1
                 timer := if s.runs.active.isSome then some s.settings.indexTimeout else s.index.timer }
      runs := s.runs } := by
    unfold State.advanceRev
    simp only [State.publishAll_index, State.publishAll_runs, State.publishAll_settings]
  unfold State.takeIndex State.publications
  dsimp only
  rw [State.publishAll_index, h, publishDue_index_runs]

/-- An index pulse with no run active (R56). -/
theorem exec_index_of_no_run {s : State} (ha : s.runs.active = none) : exec .indexEvent s =
    .next (State.raise { s.publications with index := { rev := s.index.rev + 1, timer := s.index.timer } }
      .revolution) := by
  show Host.Outcome.next s.takeIndex = _
  rw [takeIndex_eq, State.runIndex]
  dsimp only
  rw [ha]
  have h : s.publications.runs = s.runs := by unfold State.publications; simp
  simp [← h]

/-- An index pulse with a run active (R56). -/
theorem exec_index_of_run {s : State} {c} (hc : s.runs.active = some c) : exec .indexEvent s =
    .next (State.raise (State.runIndex { s.publications with
      index := { rev := s.index.rev + 1, timer := some s.settings.indexTimeout }
      runs := s.runs } (s.index.rev + 1)) .revolution) := by
  show Host.Outcome.next s.takeIndex = _
  rw [takeIndex_eq, hc]; rfl

/-- When an index publishes a head (R74). -/
theorem due_iff (s : State) (h : Head) : s.due h = true ↔ h.val < s.settings.headsInstalled ∧
    ((s.profile h).autoPublish = true ∨ (s.profile h).publishPending = true) ∧ (s.profile h).importFault = false := by
  simp [State.due, and_assoc]

/-- The heads an index finds due are named once each (R74). -/
theorem nodup_dueHeads (s : State) (r : Rev) : ((s.dueHeads r).map DueHead.head).Nodup := by
  unfold State.dueHeads
  rw [List.map_map, show DueHead.head ∘ s.dueHead r = id from rfl, List.map_id]
  exact List.Nodup.filter _ (by decide)

/-- With no publication to come and every due head published at once, what an index leaves of a cell (R75). -/
theorem cell_publications {s : State} (hm : s.MapLaw) (hp : s.publishing = [])
    (hn : (s.dueHeads (s.index.rev + 1)).length ≤ s.publishAtOnce.headD (s.dueHeads (s.index.rev + 1)).length)
    (h : Head) (w : Nat) :
    s.publications.cell h w
      = if s.due h = true ∧ w < s.settings.wedges then (s.cell h w).publish (s.index.rev + 1) else s.cell h w := by
  unfold State.publications State.publishDue
  rw [publishAll_of_none hp]
  dsimp only
  rw [List.take_of_length_le hn]
  generalize hl : s.dueHeads (s.index.rev + 1) = l
  have hmem : ∀ d, d ∈ l → d = s.dueHead (s.index.rev + 1) d.head ∧ s.due d.head = true := by
    intro d hd
    rw [← hl, State.dueHeads, List.mem_map] at hd
    obtain ⟨k, hk, rfl⟩ := hd
    exact ⟨rfl, (List.mem_filter.mp hk).2⟩
  by_cases hd : s.due h = true
  · have hin : s.dueHead (s.index.rev + 1) h ∈ l := by
      rw [← hl]
      exact List.mem_map_of_mem (List.mem_filter.mpr ⟨mem_allHeads h, hd⟩)
    have h1 := (publications_of_mem (hl ▸ nodup_dueHeads s _) hin
      { s with publishing := l.drop (s.publishAtOnce.headD l.length), publishAtOnce := s.publishAtOnce.tail }).1
    have h2 := cell_publishHead hm.canonical hm.geometry.2.2.2 (s.dueHead (s.index.rev + 1) h) h w
    have hi := ((due_iff s h).mp hd).1
    unfold State.cell at h2 ⊢
    rw [show (s.dueHead (s.index.rev + 1) h).head = h from rfl] at h1 h2
    rw [h1, show (State.publishHead { s with
      publishing := l.drop (s.publishAtOnce.headD l.length), publishAtOnce := s.publishAtOnce.tail }
      (s.dueHead (s.index.rev + 1) h)).map = (s.publishHead (s.dueHead (s.index.rev + 1) h)).map by
        unfold State.publishHead; dsimp only; split <;> rfl, h2]
    simp [hd, hi, State.dueHead]
  · have h1 := (publications_other (l := l) (k := h) (fun d hdl hc => hd (hc ▸ (hmem d hdl).2))
      { s with publishing := l.drop (s.publishAtOnce.headD l.length), publishAtOnce := s.publishAtOnce.tail }).1
    unfold State.cell
    rw [h1, if_neg (by tauto)]

/-- A server that forms no reply has no request waiting at the arbiter. -/
theorem ffWaiting_of_not_forming {s : State} (h : ∀ q, s.ff.server ≠ .forming q) : s.ffWaiting = false := by
  unfold State.ffWaiting; split
  · rename_i hh; exact absurd hh (h _)
  · rfl
  · rfl

/-- A granted Learning Engine operation. -/
theorem exec_learning_of_granted {s : State} {r} (hh : s.held = some r) (hf : ∀ q, s.ff.server ≠ .forming q) : exec
    .learningOperation s = .next (State.learnOperation { s with held := none } r) := by
  show Host.Outcome.next s.grantLearning = _
  unfold State.grantLearning
  rw [if_neg (by simp [ffWaiting_of_not_forming hf]), hh]

/-- The operation on a record that the active run takes (R42). -/
theorem learnOperation_of_run {s : State} {r} {c} (hc : s.runs.active = some c) (h1 : c.heads.get r.head = true)
    (h2 : c.serial = r.run) (h3 : c.phase.collecting = true) :
   State.learnOperation { s with held := none } r = if c.desc.kind = .gain then State.gainSample
       { s with held := none } c r else State.learnSample { s with held := none } c r := by
  unfold State.learnOperation State.admitting
  simp only [hc, Option.filter, h1, h2, h3, Bool.and_true, if_true, decide_true]

/-- The judgement of a sample that passes the first six checks (R63). -/
theorem judgeSample_of_first_six {s : State} {r : HeldRecord} {c : RunCtx} (h1 : r.track = c.desc.track)
    (h2 : ∀ q, c.collectStart = some q → earlier r.stamp q = false)
    (h3 : (s.cell r.head r.wedge).state ≠ .suspect) (h4 : (s.cell r.head r.wedge).state ≠ .excluded)
    (h5 : (s.cell r.head r.wedge).dirty = false) (h6 : earlier r.stamp (s.cell r.head r.wedge).effRev = false)
    (h7 : (s.cell r.head r.wedge).lastStamp ≠ some r.stamp) :
    judgeSample c s.settings.outlierLimit (s.cell r.head r.wedge) r = if s.settings.outlierLimit < r.e.natAbs then
        some .outlier else none := by
  unfold judgeSample
  rw [if_neg (by simpa using h1), if_neg, if_neg h3, if_neg h4, if_neg (by simp [h5, h6]), if_neg h7]
  cases hc : c.collectStart with
  | none => simp
  | some q => simp [h2 q hc]

/-- A sample that is admitted or an Outlier is not of an Excluded cell (R63). -/
theorem judgeSample_not_excluded {ctx : RunCtx} {n} {c : Cell} {r : HeldRecord} {d} (h : judgeSample ctx n c r = d)
    (hd : d = none ∨ d = some .outlier) : c.state ≠ .excluded := by
  unfold judgeSample at h
  intro hc
  rw [hc] at h
  repeat' split at h
  all_goals (subst h; simp_all)

/-- The update at the depth leaves a cell that is not Excluded so (R72). -/
theorem update_not_excluded (t : Settings) (d b cs) (c : Cell) (hc : c.state ≠ .excluded) :
    (c.update t d b cs).state ≠ .excluded := by
  unfold Cell.update
  dsimp only
  repeat' split
  all_goals simp_all

/-- A working correction written by the Bench writer leaves the state (R166). -/
theorem benchWorking_state (c : Cell) (m wc v) : (c.benchWorking m wc v).state = c.state := by
  unfold Cell.benchWorking; dsimp only; split <;> rfl

/-- A data word neither enters nor leaves the state Excluded (R169). -/
theorem dataWrite_excluded_iff (s : State) (p w) (c : Cell) : (s.dataWrite p w c).state = .excluded ↔ c.state =
    .excluded := by
  unfold State.dataWrite
  dsimp only
  split
  · unfold Cell.benchPacked; dsimp only
    rw [benchWorking_state]
    split
    · rename_i h; simp only [Bool.and_eq_true, decide_eq_true_eq] at h; simp [h.2]
    · rw [benchWorking_state]
  · split
    · rw [benchWorking_state]
    · rfl
    · unfold Cell.benchStatus
      split
      · rfl
      · rename_i st hst
        have hne : st ≠ .excluded := by
          unfold CellState.ofStatus at hst
          split at hst <;> cases hst <;> simp
        split
        · unfold Cell.writeState
          dsimp only
          repeat' split
          all_goals simp_all
        · rfl

/-- A sweep neither enters nor leaves the state Excluded (R24). -/
theorem sweepCell_excluded_iff (s : State) (k h) (c : Cell) : (s.sweepCell k h c).state = .excluded ↔ c.state =
    .excluded := by
  unfold State.sweepCell
  split
  · unfold Cell.fill; dsimp only
    split
    · rename_i hc
      simp only [Bool.and_eq_true, decide_eq_true_eq] at hc
      split <;> simp [hc.2]
    · rfl
  all_goals (unfold Cell.swept; dsimp only; split <;> simp_all)

/-! ### The map, the tables and the walks -/

/-- A row update that leaves the cells past the grid alone. -/
theorem cellAt_updateRows {s : State} (hm : s.MapLaw) (p : Head → Bool) (f : Head → Nat → Cell → Cell)
    (hb : ∀ k w, 512 ≤ w → f k w Cell.blank = Cell.blank) (k w) :
   cellAt (updateRows s.map p f) k w = if p k = true then f k w (s.cell k w) else s.cell k w := by
  unfold cellAt
  rw [get_updateRows]
  by_cases h : p k = true
  · rw [if_pos h, if_pos h]
    by_cases hw : w < Config.gridWedges
    · rw [if_pos hw]; rfl
    · rw [if_neg hw]; have := cell_of_ge hm.canonical k (w := w) (by omega); rw [this, hb]; simp only
          [Config.gridWedges] at hw; omega
  · rw [if_neg h, if_neg h]; rfl

/-- A row update of the configured wedges leaves a cell past the grid alone. -/
theorem belowW_of_ge {t : Settings} (hg : t.geometryLegal) (f : Cell → Cell) (w : Nat) (hw : 512 ≤ w) (c : Cell) :
    belowW t.wedges f w c = c := by
  unfold belowW; rw [if_neg]; have := hg.2.2.2; omega

/-- What emptying the Exclusion Table leaves of a cell (R26). -/
theorem cellAt_unexcluded (s : State) (h : Head) (w : Nat) (hm : s.MapLaw) : cellAt
    (updateRows s.map (fun _ => true) fun _ _ => Cell.unexcluded) h w =
          { s.cell h w with state := if (s.cell h w).state = .excluded then .empty else (s.cell h w).state } := by
  rw [cellAt_updateRows hm _ _ (fun k w hw => rfl), if_pos rfl]
  generalize s.cell h w = c
  unfold Cell.unexcluded
  by_cases h : c.state = .excluded <;> simp [h]

/-- A configured wedge lies in the grid (R3). -/
theorem configured_lt_grid {s : State} (hg : s.settings.geometryLegal) {h : Head} {w : Nat}
    (hc : s.configured h w = true) : w < Config.gridWedges := by
  simp only [State.configured, Bool.and_eq_true, decide_eq_true_eq] at hc
  have := hg.2.2.2
  show w < 512
  omega

/-- What the arbiter grants ahead of the link keeps the map canonical. -/
theorem mapWf_claimsAhead {s : State} (h : s.MapLaw) : mapWf s.claimsAhead.map = true := by
  unfold State.claimsAhead
  have hs : s.formReply.settings = s.settings := by simp
  have hm : mapWf s.formReply.map = true := by simpa using h.canonical
  have hg : s.formReply.settings.geometryLegal := by rw [hs]; exact h.geometry
  generalize s.formReply = s at *
  unfold State.grantLearning
  split
  · exact hm
  · split
    · exact hm
    · unfold State.learnOperation
      split
      · exact hm
      · split
        · simpa using hm
        · unfold State.learnSample
          split
          · unfold State.admitSample
            split
            · rename_i hc
              dsimp only; split
              · rw [State.modifyCell_map]; exact mapWf_modifyCellOf hm _ (configured_lt_grid hg hc) _
              · exact mapWf_modifyCellOf hm _ (configured_lt_grid hg hc) _
            · exact hm
          · rw [State.countDiscard_map]
            unfold State.discardOutlier
            split
            · rename_i hc
              rw [Bool.and_eq_true] at hc
              exact mapWf_modifyCellOf hm _ (configured_lt_grid hg hc.2) _
            · exact hm
          · simpa using hm

/-- The pointer moves inside the window (R161). -/
theorem advancePointer_within {win : Window} {ord : Order} {p q : Pointer}
    (hw : win.firstHead.val ≤ win.lastHead.val) (hww : win.firstWedge ≤ win.lastWedge)
   (hp : p.within win) (hq : advancePointer win ord p = some q) : q.within win := by
  obtain ⟨a, b, c, d, e⟩ := hp
  have := win.lastHead.isLt
  unfold advancePointer at hq
  unfold stepWedge at hq
  dsimp only at hq
  split at hq
  · split at hq
    · cases hq
      simp only [Pointer.within, headAfter, Fin.ofNat]
      omega
    · simp only [Option.map_eq_some_iff] at hq
      obtain ⟨w, hw', rfl⟩ := hq
      simp only [Pointer.within]
      split at hw' <;> split at hw' <;> cases hw' <;> omega
  · split at hq
    · rename_i w hw'
      cases hq
      simp only [Pointer.within]
      split at hw' <;> split at hw' <;> cases hw' <;> omega
    · split at hq
      · cases hq
        simp only [Pointer.within, headAfter, Fin.ofNat]
        split <;> omega
      · cases hq

/-- The start of a window lies inside it (R161). -/
theorem windowStart_within {win : Window} {ord : Order} {q : Pointer} (hw : win.firstHead.val ≤ win.lastHead.val)
    (hww : win.firstWedge ≤ win.lastWedge)
   (hq : windowStart win ord = some q) : q.within win := by
  unfold windowStart at hq
  cases hq
  simp only [Pointer.within]
  split <;> omega

/-- The head after a head. -/
theorem headAfter_eq_succ (h : Head) : headAfter h = h + 1 := by
  unfold headAfter; revert h; decide

/-- A Feed-Forward Server operation looks at nothing of the link, nor at the strap. -/
theorem formReply_bench_strap (s : State) (b : BenchLink) (x : Bool) :
    State.formReply { s with bench := b, startup := { s.startup with strap := x } }
      = { s.formReply with bench := b, startup := { s.formReply.startup with strap := x } } := by
  unfold State.formReply
  dsimp only
  split
  · rfl
  · rfl
  · rename_i q _
    rw [show State.judgeRequest { s with bench := b, startup := { s.startup with strap := x } } q = s.judgeRequest q from rfl]
    cases s.judgeRequest q <;> rfl

/-- A total raised looks at nothing of the link, nor at the start-up. -/
theorem countDiscard_bench_startup (s : State) (b : BenchLink) (u : Startup) (d : Discard) :
    State.countDiscard { s with bench := b, startup := u } d = { s.countDiscard d with bench := b, startup := u } := by
  unfold State.countDiscard
  cases s.runs.active <;> rfl

/-- A Learning Engine operation looks at nothing of the link, nor at the start-up. -/
theorem grantLearning_bench_startup (s : State) (b : BenchLink) (u : Startup) :
    State.grantLearning { s with bench := b, startup := u } = { s.grantLearning with bench := b, startup := u } := by
  have hd : ∀ (s : State) (c r), State.discardOutlier { s with bench := b, startup := u } c r
      = { s.discardOutlier c r with bench := b, startup := u } := by
    intro s c r
    unfold State.discardOutlier
    rw [show State.configured { s with bench := b, startup := u } r.head r.wedge = s.configured r.head r.wedge from rfl]
    dsimp only
    cases ((s.perms.learning.get r.head).cs && s.configured r.head r.wedge) <;> rfl
  have ha : ∀ (s : State) (c r), State.admitSample { s with bench := b, startup := u } c r
      = { s.admitSample c r with bench := b, startup := u } := by
    intro s c r
    unfold State.admitSample
    rw [show State.configured { s with bench := b, startup := u } r.head r.wedge = s.configured r.head r.wedge from rfl,
      show State.cell { s with bench := b, startup := u } r.head r.wedge = s.cell r.head r.wedge from rfl]
    cases s.configured r.head r.wedge
    · rfl
    · dsimp only
      rw [if_pos rfl, if_pos rfl]
      split <;> rfl
  have hl : ∀ (s : State) (c r), State.learnSample { s with bench := b, startup := u } c r
      = { s.learnSample c r with bench := b, startup := u } := by
    intro s c r
    unfold State.learnSample
    rw [show State.cell { s with bench := b, startup := u } r.head r.wedge = s.cell r.head r.wedge from rfl]
    dsimp only
    split
    · exact ha _ _ _
    · rw [hd, countDiscard_bench_startup]
    · exact countDiscard_bench_startup _ _ _ _
  have hg : ∀ (s : State) (c r), State.gainSample { s with bench := b, startup := u } c r
      = { s.gainSample c r with bench := b, startup := u } := by
    intro s c r
    unfold State.gainSample
    rw [show State.cell { s with bench := b, startup := u } r.head r.wedge = s.cell r.head r.wedge from rfl]
    dsimp only
    split
    · rfl
    · exact countDiscard_bench_startup _ _ _ _
  unfold State.grantLearning
  rw [show State.ffWaiting { s with bench := b, startup := u } = s.ffWaiting from rfl]
  dsimp only
  cases s.ffWaiting
  · rw [if_neg (by simp), if_neg (by simp)]
    cases hh : s.held with
    | none => simp [hh]
    | some r =>
      dsimp only
      unfold State.learnOperation
      rw [show State.admitting { s with held := none, bench := b, startup := u } r.head = State.admitting { s with held := none } r.head
        from rfl]
      split
      · rfl
      · split
        · exact hg { s with held := none } _ r
        · exact hl { s with held := none } _ r
  · rfl

/-- What the arbiter grants ahead of the link looks at nothing of the link, nor at the strap. -/
theorem claimsAhead_bench_strap (s : State) (b : BenchLink) (x : Bool) :
    State.claimsAhead { s with bench := b, startup := { s.startup with strap := x } }
      = { s.claimsAhead with bench := b, startup := { s.claimsAhead.startup with strap := x } } := by
  rw [State.claimsAhead, formReply_bench_strap, grantLearning_bench_startup, State.claimsAhead]
  simp

/-- What the arbiter grants ahead of the link looks at nothing of the link. -/
theorem claimsAhead_bench (s : State) (b : BenchLink) :
    State.claimsAhead { s with bench := b } = { s.claimsAhead with bench := b } := by
  have h := claimsAhead_bench_strap s b s.startup.strap
  rwa [show ({ s.claimsAhead.startup with strap := s.startup.strap } : Startup) = s.claimsAhead.startup by
    rw [State.claimsAhead_startup]] at h

/-- A claimed read that is completed does not look at the strap. -/
theorem takeClaimedRead_setStrap (s : State) (x : Bool) : (s.setStrap x).takeClaimedRead = s.takeClaimedRead.setStrap x := by
  have hc : (s.setStrap x).claimsAhead = s.claimsAhead.setStrap x := by
    have h := claimsAhead_bench_strap s s.bench x
    rwa [show ({ s.claimsAhead with bench := s.bench, startup := { s.claimsAhead.startup with strap := x } } : State)
      = s.claimsAhead.setStrap x by rw [State.setStrap, ← State.claimsAhead_bench s]] at h
  have hp : ∀ s : State, (s.setStrap x).pump = s.pump.setStrap x := by
    intro s
    unfold State.pump
    rw [show (s.setStrap x).bench = s.bench from rfl]
    dsimp only
    (repeat' split) <;> rfl
  have hr : ∀ s : State, (s.setStrap x).completeStreamRead = s.completeStreamRead.setStrap x := by
    intro s
    unfold State.completeStreamRead
    rw [show (s.setStrap x).bench = s.bench from rfl]
    split
    · unfold State.readStreamItem
      rw [show (s.setStrap x).bench = s.bench from rfl]
      split
      · rfl
      · rename_i p _
        exact hp { s with bench := { s.bench with
          pointer := advancePointer s.bench.window s.bench.order p, stream := some { kind := _, words := s.itemAt p } } }
    · rfl
  unfold State.takeClaimedRead
  rw [show (s.setStrap x).streamReadWaiting = s.streamReadWaiting from rfl, hc, hr]
  split <;> rfl

/-- A data word at the pointer does not look at the assembly. -/
theorem writeAtPointer_assembly (s : State) (a : Assembly) (w) : State.writeAtPointer
    { s with bench := { s.bench with assembly := a } } w =
    { s.writeAtPointer w with bench := { (s.writeAtPointer w).bench with assembly := a } } := by
  unfold State.writeAtPointer
  dsimp only
  split
  · rfl
  · rename_i p hp
    rw [claimsAhead_bench, ← State.claimsAhead_bench s]
    generalize s.claimsAhead = t
    unfold State.writeWord State.benchWrite
    rw [show State.configured { t with bench := { t.bench with assembly := a } } p.head p.wedge
      = t.configured p.head p.wedge from rfl]
    by_cases hcf : t.configured p.head p.wedge = true
    · simp only [hcf, if_true]; rfl
    · simp only [hcf]; rfl

/-- A Stream Map read waits where the stream has placed all its words and its kind is a map stream's (R172). -/
theorem streamReadWaiting_iff (s : State) : s.streamReadWaiting = true ↔ s.ReadWaits := by
  unfold State.streamReadWaiting State.ReadWaits
  split
  · rename_i l c h; exact ⟨fun _ => ⟨l, c, h⟩, fun _ => rfl⟩
  · rename_i hn; exact ⟨nofun, fun ⟨l, c, h⟩ => absurd h (hn l c)⟩

/-- The two claims before the link's, granted one after the other (R19). -/
theorem execAll_claims (s : State) : execAll [.ffOperation, .learningOperation] s = .next s.claimsAhead := rfl

/-- After the claims ahead neither waits. -/
theorem claimsAhead_not_waiting (s : State) : s.claimsAhead.ffWaiting = false ∧ s.claimsAhead.held = none := by
  have h1 : s.formReply.ffWaiting = false := by
    unfold State.formReply
    split
    · rename_i h; simp [State.ffWaiting, h]
    · rename_i h; simp [State.ffWaiting, h]
    · split <;> rfl
  have h2 : s.claimsAhead.ff = s.formReply.ff := by unfold State.claimsAhead; simp
  refine ⟨by rw [← h1]; unfold State.ffWaiting; rw [h2], ?_⟩
  unfold State.claimsAhead State.grantLearning
  rw [h1]
  simp only [Bool.false_eq_true, if_false]
  split
  · assumption
  · simp

/-- The read that a Stream Map has claimed, completed (R19, R172). -/
theorem readTaken_takeClaimedRead (s : State) : s.ReadTaken s.takeClaimedRead := by
  unfold State.ReadTaken State.takeClaimedRead
  rw [← streamReadWaiting_iff]
  refine ⟨fun h => ?_, fun h => by rw [if_neg h]⟩
  rw [if_pos h]
  have hw := claimsAhead_not_waiting s
  show Host.Outcome.next (s.claimsAhead.grantStreamRead) = _
  unfold State.grantStreamRead
  rw [hw.1, hw.2]; rfl

/-- The entries of a table after an insertion. -/
theorem mem_insertExclusion (e x : Head × Nat) (l) : x ∈ insertExclusion e l ↔ x = e ∨ x ∈ l := by
  induction l with
  | nil => simp [insertExclusion]
  | cons y ys ih =>
    unfold insertExclusion
    split
    · simp
    · split
      · rename_i h; subst h; simp
      · simp only [List.mem_cons, ih]; tauto

/-- The order of the Exclusion Table is transitive. -/
theorem exclusionBefore_trans {a b c : Head × Nat} (h1 : exclusionBefore a b = true)
    (h2 : exclusionBefore b c = true) : exclusionBefore a c = true := by
  simp only [exclusionBefore, Bool.or_eq_true, Bool.and_eq_true, decide_eq_true_eq] at *
  rcases h1 with h1 | ⟨h1, h1'⟩ <;> rcases h2 with h2 | ⟨h2, h2'⟩
  · left; omega
  · left; rw [← h2]; omega
  · left; rw [h1]; omega
  · right; exact ⟨h1.trans h2, by omega⟩

/-- Of two entries one is before the other. -/
theorem exclusionBefore_total {a b : Head × Nat} (h1 : exclusionBefore a b = false) (h : a ≠ b) : exclusionBefore b
    a = true := by
  simp only [exclusionBefore, Bool.or_eq_false_iff, Bool.and_eq_false_imp, decide_eq_false_iff_not, Bool.or_eq_true,
      Bool.and_eq_true, decide_eq_true_eq] at *
  obtain ⟨x, y⟩ := a
  obtain ⟨z, w⟩ := b
  simp only [ne_eq, Prod.mk.injEq] at *
  by_cases hx : x = z
  · subst hx
    right
    refine ⟨rfl, ?_⟩
    have := h1.2 rfl
    have h' : y ≠ w := fun hc => h ⟨rfl, hc⟩
    omega
  · left
    have : x.val ≠ z.val := fun hc => hx (Fin.ext hc)
    omega

/-- An insertion keeps the table in order (R143). -/
theorem pairwise_insertExclusion (e : Head × Nat) (l : List (Head × Nat))
    (h : l.Pairwise (fun a b => exclusionBefore a b = true)) :
   (insertExclusion e l).Pairwise (fun a b => exclusionBefore a b = true) := by
  induction l with
  | nil => simp [insertExclusion]
  | cons y ys ih =>
    have h' := List.pairwise_cons.mp h
    unfold insertExclusion
    split
    · rename_i he
      refine List.pairwise_cons.mpr ⟨?_, h⟩
      intro x hx
      rcases List.mem_cons.mp hx with rfl | hx
      · exact he
      · exact exclusionBefore_trans he (h'.1 x hx)
    · split
      · exact h
      · rename_i he hne
        refine List.pairwise_cons.mpr ⟨?_, ih h'.2⟩
        intro x hx
        rcases (mem_insertExclusion e x ys).mp hx with rfl | hx
        · exact exclusionBefore_total (by simpa using he) hne
        · exact h'.1 x hx

/-- An insertion adds at most one entry. -/
theorem length_insertExclusion_le (e : Head × Nat) (l : List (Head × Nat)) : (insertExclusion e l).length ≤ l.length
    + 1 := by
  induction l with
  | nil => simp [insertExclusion]
  | cons y ys ih =>
    unfold insertExclusion
    split
    · simp
    · split
      · simp
      · simp; omega

/-- An insertion of a new entry adds one. -/
theorem length_insertExclusion (e : Head × Nat) (l : List (Head × Nat)) (h : e ∉ l) : (insertExclusion e l).length =
    l.length + 1 := by
  induction l with
  | nil => rfl
  | cons x xs ih =>
    simp only [List.mem_cons, not_or] at h
    unfold insertExclusion
    rw [if_neg h.1]
    split
    · rfl
    · simp [ih h.2]

/-- With a request waiting, the one taken next is among those that wait (R149). -/
theorem State.autoNext_lt {s : State} (h : s.autoRequests ≠ []) : s.autoNext < s.autoRequests.length :=
  Nat.mod_lt _ (List.length_pos_of_ne_nil h)

/-- What taking an auto-exclusion can do: nothing with none waiting; otherwise one request leaves the queue, and its cell is
entered, or not, by the table as it stands (R149; log 13). -/
theorem State.takeAutoExclusion_cases (s : State) :
    (s.autoRequests = [] ∧ s.takeAutoExclusion = s)
      ∨ ∃ h w, s.autoRequests[s.autoNext]? = some (h, w) ∧
        let t := { s with autoRequests := s.autoRequests.eraseIdx s.autoNext, autoOrder := s.autoOrder.tail }
        ((h, w) ∈ s.exclusions ∨ s.configured h w = false) ∧ s.takeAutoExclusion = t
          ∨ (h, w) ∉ s.exclusions ∧ s.configured h w = true ∧
            s.takeAutoExclusion = if 32 ≤ s.exclusions.length then t.raise .exclusionFull else t.enterExclusion h w := by
  cases hr : s.autoRequests[s.autoNext]? with
  | none =>
    refine .inl ⟨?_, by simp [State.takeAutoExclusion, hr]⟩
    by_contra hne
    exact absurd (List.getElem?_eq_none_iff.mp hr) (Nat.not_le.mpr (State.autoNext_lt hne))
  | some e =>
    obtain ⟨h, w⟩ := e
    refine .inr ⟨h, w, rfl, ?_⟩
    unfold State.takeAutoExclusion
    rw [hr]
    dsimp only
    simp only [List.contains_eq_mem, decide_eq_true_eq]
    by_cases hx : (h, w) ∈ s.exclusions
    · exact .inl ⟨.inl hx, if_pos hx⟩
    · rw [if_neg hx]
      cases hc : s.configured h w with
      | false => exact .inl ⟨.inr rfl, if_pos hc⟩
      | true => exact .inr ⟨hx, rfl, if_neg (fun h => Bool.noConfusion (hc.symm.trans h))⟩

/-- A sweep moves inside its range (R28). -/
theorem Sweep.legal_advance {w w' : Sweep} (h : w.legal) (ha : w.advance = some w') : w'.legal := by
  obtain ⟨a, b, c, d, e⟩ := h
  have := w.lastHead.isLt
  unfold Sweep.advance at ha
  split at ha
  · cases ha; simp only [Sweep.legal]; omega
  · split at ha
    · cases ha; simp only [Sweep.legal, headAfter, Fin.ofNat]; omega
    · cases ha

/-- The sweep of the whole grid lies in the grid. -/
theorem gridSweep_legal (k : SweepKind) : (gridSweep k).legal := by
  refine ⟨?_, ?_, ?_, ?_, ?_⟩ <;> simp [gridSweep, Config.gridWedges]

/-! ### Start-up -/

/-- A test whose sweep has ended ends when nothing of the pair is left to wait for (R200). -/
theorem endTestIfDone_of_swept {s : State} {own} (hp : s.startup.phase = .swept own)
    (h1 : s.startup.unitState = .starting) : s.endTestIfDone = if s.startup.pairSettled = true then s.finishTest own
    else s := by
  unfold State.endTestIfDone
  rw [hp]
  simp only [TestPhase.ended, h1, true_and]

/-- A test whose sweep has not ended goes on (R200). -/
theorem endTestIfDone_of_not_swept {s : State} (hp : ∀ own, s.startup.phase ≠ .swept own) : s.endTestIfDone = s := by
  unfold State.endTestIfDone
  cases h : s.startup.phase <;> first | rfl | exact absurd h (hp _)

end Sys2Proof.Machine
end

