-- ==== Sys2Proof/Laws/PerInstr.lean ====
section
/-! SUPPORT. The family of per-command statements: what a command of the link carries. -/

/-- A command of the link carries as many parameter words as its code asks for, and its command word names it (12.5). -/
def Sys2Proof.Laws.LinkWords.Statement (i : Sys2Proof.Instr) : Prop :=
  ∀ (code : Sys2Proof.CmdCode) (ps : List Sys2Proof.Word), i.linkWords = some (code, ps) →
    ps.length = code.paramCount ∧ Sys2Proof.CmdCode.ofWord code.code = some code

namespace Sys2Proof.Laws.LinkWords

theorem captureWord (frameStart : Bool) (w : Word) : Statement (.captureWord frameStart w) := by
  rintro _ _ ⟨⟩

theorem indexEvent : Statement .indexEvent := by
  rintro _ _ ⟨⟩

theorem indexTimerExpiry : Statement .indexTimerExpiry := by
  rintro _ _ ⟨⟩

theorem runStart : Statement .runStart := by
  rintro _ _ ⟨⟩

theorem learningTakeRecord : Statement .learningTakeRecord := by
  rintro _ _ ⟨⟩

theorem learningOperation : Statement .learningOperation := by
  rintro _ _ ⟨⟩

theorem autoExclusion : Statement .autoExclusion := by
  rintro _ _ ⟨⟩

theorem ffRequest (w : Word) : Statement (.ffRequest w) := by
  rintro _ _ ⟨⟩

theorem ffOperation : Statement .ffOperation := by
  rintro _ _ ⟨⟩

theorem ffReplyStrobe (otherReady : Bool) : Statement (.ffReplyStrobe otherReady) := by
  rintro _ _ ⟨⟩

theorem sweepStep : Statement .sweepStep := by
  rintro _ _ ⟨⟩

theorem powerOnReset (strap : Bool) : Statement (.powerOnReset strap) := by
  rintro _ _ ⟨⟩

theorem memoryTestEnd (result : MemoryResult) : Statement (.memoryTestEnd result) := by
  rintro _ _ ⟨⟩

theorem secondaryPresentAssert : Statement .secondaryPresentAssert := by
  rintro _ _ ⟨⟩

theorem presentSeen : Statement .presentSeen := by
  rintro _ _ ⟨⟩

theorem presenceWindowExpiry : Statement .presenceWindowExpiry := by
  rintro _ _ ⟨⟩

theorem passedSeen : Statement .passedSeen := by
  rintro _ _ ⟨⟩

theorem pairWaitExpiry : Statement .pairWaitExpiry := by
  rintro _ _ ⟨⟩

theorem returnQueueRead : Statement .returnQueueRead := by
  rintro _ _ ⟨⟩

theorem streamMapItemRead : Statement .streamMapItemRead := by
  rintro _ _ ⟨⟩

theorem statusReadAcknowledge : Statement .statusReadAcknowledge := by
  rintro _ _ ⟨⟩

theorem benchParameterWord (select : BitVec 2) (w : Word) : Statement (.benchParameterWord select w) := by
  rintro _ _ ⟨⟩

theorem mapDataWord (w : Word) : Statement (.mapDataWord w) := by
  rintro _ _ ⟨⟩

theorem unknownCommand (w : Word) : Statement (.unknownCommand w) := by
  rintro _ _ ⟨⟩

theorem null : Statement .null := by
  rintro _ _ ⟨⟩; exact ⟨rfl, rfl⟩

theorem selectUnit (unit : Word) : Statement (.selectUnit unit) := by
  rintro _ _ ⟨⟩; exact ⟨rfl, rfl⟩

theorem selfTest (strap : Bool) : Statement (.selfTest strap) := by
  rintro _ _ ⟨⟩; exact ⟨rfl, rfl⟩

theorem unitReset : Statement .unitReset := by
  rintro _ _ ⟨⟩; exact ⟨rfl, rfl⟩

theorem haltStream : Statement .haltStream := by
  rintro _ _ ⟨⟩; exact ⟨rfl, rfl⟩

theorem setGeometry (heads wedges : Word) : Statement (.setGeometry heads wedges) := by
  rintro _ _ ⟨⟩; exact ⟨rfl, rfl⟩

theorem fill (value state : Word) : Statement (.fill value state) := by
  rintro _ _ ⟨⟩; exact ⟨rfl, rfl⟩

theorem setWindow (firstHead lastHead firstWedge lastWedge : Word) : Statement (.setWindow firstHead lastHead firstWedge lastWedge) := by
  rintro _ _ ⟨⟩; exact ⟨rfl, rfl⟩

theorem setAccessOrder (major direction view : Word) : Statement (.setAccessOrder major direction view) := by
  rintro _ _ ⟨⟩; exact ⟨rfl, rfl⟩

theorem writeMap : Statement .writeMap := by
  rintro _ _ ⟨⟩; exact ⟨rfl, rfl⟩

theorem writeMapContinue : Statement .writeMapContinue := by
  rintro _ _ ⟨⟩; exact ⟨rfl, rfl⟩

theorem readMapItem : Statement .readMapItem := by
  rintro _ _ ⟨⟩; exact ⟨rfl, rfl⟩

theorem streamMap (count : Word) : Statement (.streamMap count) := by
  rintro _ _ ⟨⟩; exact ⟨rfl, rfl⟩

theorem publishNow (heads : Word) : Statement (.publishNow heads) := by
  rintro _ _ ⟨⟩; exact ⟨rfl, rfl⟩

theorem enqueueRun (w1 w2 w3 w4 w5 w6 w7 : Word) : Statement (.enqueueRun w1 w2 w3 w4 w5 w6 w7) := by
  rintro _ _ ⟨⟩; exact ⟨rfl, rfl⟩

theorem cancelQueued (tag : Word) : Statement (.cancelQueued tag) := by
  rintro _ _ ⟨⟩; exact ⟨rfl, rfl⟩

theorem haltRun : Statement .haltRun := by
  rintro _ _ ⟨⟩; exact ⟨rfl, rfl⟩

theorem takeResult : Statement .takeResult := by
  rintro _ _ ⟨⟩; exact ⟨rfl, rfl⟩

theorem feedForwardOn : Statement .feedForwardOn := by
  rintro _ _ ⟨⟩; exact ⟨rfl, rfl⟩

theorem feedForwardOff : Statement .feedForwardOff := by
  rintro _ _ ⟨⟩; exact ⟨rfl, rfl⟩

theorem excludeWedge (head wedge : Word) : Statement (.excludeWedge head wedge) := by
  rintro _ _ ⟨⟩; exact ⟨rfl, rfl⟩

theorem includeWedge (head wedge : Word) : Statement (.includeWedge head wedge) := by
  rintro _ _ ⟨⟩; exact ⟨rfl, rfl⟩

theorem clearExclusions (heads : Word) : Statement (.clearExclusions heads) := by
  rintro _ _ ⟨⟩; exact ⟨rfl, rfl⟩

theorem readExclusions : Statement .readExclusions := by
  rintro _ _ ⟨⟩; exact ⟨rfl, rfl⟩

theorem setPermissions (writer heads fields : Word) : Statement (.setPermissions writer heads fields) := by
  rintro _ _ ⟨⟩; exact ⟨rfl, rfl⟩

theorem readPermissions : Statement .readPermissions := by
  rintro _ _ ⟨⟩; exact ⟨rfl, rfl⟩

theorem readMonitor (head : Word) : Statement (.readMonitor head) := by
  rintro _ _ ⟨⟩; exact ⟨rfl, rfl⟩

theorem readCaptureCounts : Statement .readCaptureCounts := by
  rintro _ _ ⟨⟩; exact ⟨rfl, rfl⟩

theorem readIdentity : Statement .readIdentity := by
  rintro _ _ ⟨⟩; exact ⟨rfl, rfl⟩

theorem readSettings : Statement .readSettings := by
  rintro _ _ ⟨⟩; exact ⟨rfl, rfl⟩

theorem setSetting (selector value : Word) : Statement (.setSetting selector value) := by
  rintro _ _ ⟨⟩; exact ⟨rfl, rfl⟩

theorem setHeadGain (head gain : Word) : Statement (.setHeadGain head gain) := by
  rintro _ _ ⟨⟩; exact ⟨rfl, rfl⟩

theorem setHeadOptions (head lead polarity split : Word) : Statement (.setHeadOptions head lead polarity split) := by
  rintro _ _ ⟨⟩; exact ⟨rfl, rfl⟩

theorem clearEvents (kinds : Word) : Statement (.clearEvents kinds) := by
  rintro _ _ ⟨⟩; exact ⟨rfl, rfl⟩

theorem setEventEnables (kinds : Word) : Statement (.setEventEnables kinds) := by
  rintro _ _ ⟨⟩; exact ⟨rfl, rfl⟩

theorem presentRelease : Statement .presentRelease := by
  rintro _ _ ⟨⟩

end Sys2Proof.Laws.LinkWords
end

