-- ==== Sys2Proof/Tests/Slice0.lean ====
section
/-! SUPPORT. Tests of the model: the worked examples of the spec, the smoke tests of WellFormed, and a witness for the
hypotheses of every statement that has some. -/

namespace Sys2Proof.Tests

open Sys2Proof Sys2Proof.Machine

/-! ### Small states -/

/-- The state of a step's answer; reset where it answers none. -/
def after (i : Instr) (s : State) : State :=
  match exec i s with
  | .next t => t
  | .fault _ | .refused _ => State.reset

/-- A Ready primary whose secondary is absent, at its power-on settings. -/
def ready : State :=
  { startup := { unitState := .ready, phase := .none, testCode := 1, presence := .absent, checkOpen := false } }

/-- The unit of most worked examples: HeadsInstalled 4, W 32, feed-forward On. -/
def small : State :=
  { ready with
    settings := { headsInstalled := 4, wedges := 32, feedForward := true }
    bench := { window := { lastHead := 3, lastWedge := 31 } } }

/-- A state with one cell of its map replaced. -/
def withCell (s : State) (h : Head) (w : Nat) (c : Cell) : State :=
  { s with map := s.map.set h (Sparse.set Cell.blank (s.map.get h) w c) }

/-- The set of one head. -/
def one (h : Head) : HeadSet := PerHead.ofFn fun k => k == h

/-- The descriptor of the worked runs, on track 7100. -/
def desc (kind : RunKind) (heads : HeadSet) : Descriptor :=
  { tag := 40, kind := kind, heads := heads, track := 7100, settle := 1, budget := 3, noRetry := false
    autoExclude := false, resetCells := false, step := 64, phaseRevs := 2 }

/-- A run of that descriptor in a phase. -/
def run (kind : RunKind) (heads : HeadSet) (phase : Phase) : RunCtx :=
  { desc := desc kind heads, heads := heads, skipped := PerHead.all false, depth := 8, phase := phase, settleCounter := 1
    collectStart := some 501, injection := phase.injection, serial := 1 }

/-- A state with a run active. -/
def running (s : State) (c : RunCtx) : State :=
  { s with runs := { s.runs with active := some c, serial := 1 }, index := { s.index with timer := some 100 } }

/-! ### WellFormed refuses ill-formed steps -/

/-- The word of Null opens no assembly, so its strobe is not one that BENCH_PARAMETER_WORD names (R180). -/
theorem test_wf_refuses_command_without_parameters : WellFormed (.benchParameterWord 0 0x0000) = false := by decide

/-- The word of Null names a command, so it is no UNKNOWN_COMMAND (R180). -/
theorem test_wf_refuses_known_command : WellFormed (.unknownCommand 0x0000) = false := by decide

/-- The code 05h names no command (12.5). -/
theorem test_wf_takes_unknown_command : WellFormed (.unknownCommand 0x1205) = true := by decide

/-! ### Arithmetic (chapter 2, cases 1 to 7; chapter 10; chapter 12) -/

/-- Cases 1 and 3. -/
theorem test_pes_normal_and_quadrature :
    positionError 256 18022 1500 900 0 0 = .error 141 ∧ positionError 256 12000 300 2100 600 1400 = .error (-225) := by
  decide

/-- Case 4: the branch boundary. -/
theorem test_pes_branch_boundary :
    positionError 256 16384 1203 400 0 0 = .error 256 ∧ positionError 256 16384 1205 400 0 0 = .weak := by decide

/-- Cases 5 and 6. -/
theorem test_pes_weak_and_inconsistent :
    positionError 256 16384 100 120 0 0 = .weak ∧ positionError 16 16384 4095 0 5 3 = .weak
      ∧ positionError 256 16384 2400 100 2000 100 = .inconsistent := by decide

/-- Case 7: the clamp. -/
theorem test_pes_clamp :
    positionError 256 32751 4095 0 2000 2000 = .error 1023 ∧ positionError 256 32752 4095 0 2000 2000 = .error 1023
      ∧ rounded (512 * 32752) 16384 = 1024 := by decide

/-- The check value of the CRC (R174). -/
theorem test_crc_check_value :
    crcFinal ([0x31#8, 0x32#8, 0x33#8, 0x34#8, 0x35#8, 0x36#8, 0x37#8, 0x38#8, 0x39#8].foldl crcByte crcStart)
      = 0xCBF43926#32 := by decide +kernel

/-- The example of section 12.6. -/
theorem test_status_word_example :
    State.statusWord { small with
      runs := { queue := [desc .learn (one 1)], active := some (run .learn (one 1) .collect)
                results := [{ tag := 1, kind := .learn, outcome := .complete, cause := .none, collectRevs := 1,
                              retries := 0, totals := {}, entries := [] }] }
      bench := { small.bench with
        returnQueue := [0, 0], flags := { runEnded := true }, enables := { runEnded := true } } }
      = 0xCC92 := by decide

/-! ### The Capture Port and the index (chapters 3, 4, 6) -/

/-- A unit at revolution 1207 with five words of a frame for head 1 received. -/
def framed (w1 : Word) : State :=
  { ready with
    settings := { headsInstalled := 4 }, index := { rev := 1207 }
    capture := { frame := [w1, 7100, 1500, 900, 0] } }

/-- Frame 5 of "a full FIFO on the primary": head 1, wedge 41. -/
theorem test_frame_queued_with_stamp :
    (after (.captureWord false 0) (framed 0x114C)).capture.fifo
      = [{ head := 1, wedge := 41, track := 7100, a := 1500, b := 900, c := 0, d := 0, stamp := 1207 }] := by decide

/-- Frame 3 of the same sequence: wedge 300 with W 256. -/
theorem test_frame_out_of_range :
    (after (.captureWord false 0) (framed 0x1964)).capture.outOfRange = 1
      ∧ (after (.captureWord false 0) (framed 0x1964)).capture.fifo = [] := by decide

/-- "One cell through an update": the index that begins revolution 510 publishes -105. -/
theorem test_index_publishes :
    ((after .indexEvent { withCell small 2 10
          { working := -105, published := -35, state := .learning, dirty := true, effRev := 498, lastStamp := some 509 } with
        index := { rev := 509 }, profiles := small.profiles.set 2 { autoPublish := true } }).cell 2 10)
      = { working := -105, published := -105, state := .learning, effRev := 510, lastStamp := some 509 } := by
  decide +kernel

/-- "One cell through an update" with the publication left to come: the index publishes nothing within its step, and the next
step with none waiting publishes -105 and keeps the revolution of the index. -/
theorem test_publication_to_come :
    let s := after .indexEvent { withCell small 2 10
          { working := -105, published := -35, state := .learning, dirty := true, effRev := 498, lastStamp := some 509 } with
        index := { rev := 509 }, profiles := small.profiles.set 2 { autoPublish := true }, publishAtOnce := [0] }
    (s.cell 2 10).published = -35
      ∧ ((match step s with | .next t => t | _ => s).cell 2 10)
        = { working := -105, published := -105, state := .learning, effRev := 510, lastStamp := some 509 } := by
  decide +kernel

/-- "One GAIN run on four heads": the index that begins revolution 807 computes head 3's gain. -/
theorem test_index_computes_gain :
    ((after .indexEvent (running { small with index := { rev := 806 } }
      { run .gain (one 3) .minusCollect with
        phaseRevs := 1, sums := (PerHead.all {}).set 3 { plusSum := 3596, plusCount := 62, minusSum := -3660, minusCount := 61 } })
      ).profile 3).pendingGain = some 17772 := by decide +kernel

/-- R77: a gain computed at an index replaces an equal pending gain that the index found, and the publication of the head still
to come at that index leaves it pending. -/
theorem test_replaced_gain_stays_pending :
    let s := after .indexEvent (running { small with
          index := { rev := 806 }, publishAtOnce := [0]
          profiles := small.profiles.set 3 { autoPublish := true, pendingGain := some 17772 } }
        { run .gain (one 3) .minusCollect with
          phaseRevs := 1, sums := (PerHead.all {}).set 3 { plusSum := 3596, plusCount := 62, minusSum := -3660, minusCount := 61 } })
    (match step s with | .next t => some ((t.profile 3).gain, (t.profile 3).pendingGain) | _ => none)
      = some (16384, some 17772) := by decide +kernel

/-- "The spindle stops". -/
theorem test_index_timer_faults_run :
    ((after .indexTimerExpiry (running small (run .learn (one 1) .collect))).runs.results.map fun r => (r.outcome, r.cause))
      = [(.faulted, .spindleLost)] := by decide +kernel

/-! ### Runs and the Learning Engine (chapters 2, 4, 5, 8) -/

/-- "Two runs through one queue": head 2 has its import fault set and is skipped. -/
theorem test_run_start_skips_faulted_head :
    ((after .runStart { small with
        index := { rev := 700 }
        runs := { queue := [{ desc .learn (PerHead.ofFn fun h => h == 1 || h == 2) with settle := 2 }] }
        profiles := small.profiles.set 2 { importFault := true } }).runs.active.map fun c =>
          (c.heads, c.skipped, c.settleCounter)) = some (one 1, one 2, 3) := by decide +kernel

/-- Case 1 of chapter 2, from a record. -/
theorem test_record_writes_monitor :
    ((after .learningTakeRecord { small with
        profiles := small.profiles.set 1 { gain := 18022 }
        capture := { fifo := [{ head := 1, wedge := 9, track := 7100, a := 1500, b := 900, c := 0, d := 0, stamp := 5 }] } }
      ).profile 1).monitor = some { pes := 141, wedge := 9, stamp := 5 } := by decide

/-- Cell (2, 10) of "One cell through an update", before the sample stamped 509. -/
def updating (e : Int) : State :=
  { withCell (running small (run .learn (one 2) .collect)) 2 10
      { working := -35, published := -35, state := .loaded, outliers := 1, sum := 985, count := 7, effRev := 498,
        lastStamp := some 508 } with
    held := some { head := 2, wedge := 10, track := 7100, stamp := 509, e := e, run := 1 } }

/-- The update to -105. -/
theorem test_learning_update :
    (after .learningOperation (updating 133)).cell 2 10
      = { working := -105, published := -35, state := .learning, outliers := 1, dirty := true, effRev := 498,
          lastStamp := some 509 } := by decide

/-- An outlier raises the outlier count and sets no last stamp. -/
theorem test_learning_outlier :
    (after .learningOperation (updating 900)).cell 2 10
      = { working := -35, published := -35, state := .loaded, outliers := 2, sum := 985, count := 7, effRev := 498,
          lastStamp := some 508 } := by decide

/-- An auto-exclusion enters its cell. -/
theorem test_auto_exclusion :
    ((after .autoExclusion { withCell small 1 12 { state := .suspect, outliers := 4 } with autoRequests := [(1, 12)] }).cell
      1 12).state = .excluded := by decide

/-- Of two waiting requests the later, taken first, gets the last entry (R149). -/
theorem test_auto_exclusion_later :
    let s : State := { small with
      exclusions := (List.range 31).map fun n => (0, n), autoRequests := [(1, 12), (2, 7)], autoOrder := [1] }
    let t := after .autoExclusion s
    (t.cell 2 7).state = .excluded ∧ t.autoRequests = [(1, 12)] ∧ t.exclusions.length = 32 := by decide

/-! ### Feed-forward (chapter 7) -/

/-- The unit of "composing one reply". -/
def serving : State :=
  running { small with
      profiles := small.profiles.set 1 { offsetSplit := true, offset := -30 }
      exclusions := [(1, 10)]
      map := (PerHead.all []).set 1
        [(9, { published := -40, state := .converged }), (10, { state := .excluded }),
          (11, { published := -47, state := .learning }), (12, { published := -51, state := .converged })] }
    (run .gain (one 1) .plusCollect)

/-- "Replacement on a paired port": a request of the other unit withdraws the reply and sets the port mark. -/
theorem test_ff_request_of_other_unit :
    (after (.ffRequest 0xC148) { small with
      ff := { server :=
        .replying { value := 0, reason := .normal, offset := 0, replaced := false, injecting := false } true } }).ff = { server := .idle, portMark := true } := by decide

/-- The request for head 1, wedge 9 is answered 50, Interpolated, offset -30, Injecting. -/
theorem test_ff_reply_interpolated :
    (after .ffOperation (after (.ffRequest 0x1048) serving)).ff.server
      = .replying { value := 50, reason := .interpolated, offset := -30, replaced := false, injecting := true } false := by
  decide

/-- The request for wedge 10 is answered 47, Normal. -/
theorem test_ff_reply_normal :
    (after .ffOperation (after (.ffRequest 0x1050) serving)).ff.server
      = .replying { value := 47, reason := .normal, offset := -30, replaced := false, injecting := true } false := by
  decide

/-- Word 1 of the reply 50, Interpolated (12.4). -/
theorem test_ff_reply_strobe :
    (after (.ffReplyStrobe false) { small with
      ff := { server :=
        .replying { value := 50, reason := .interpolated, offset := -30, replaced := false, injecting := true } false } }
      ).ff.out = some 0x0321 := by decide

/-- A reply strobe while neither unit holds a reply finds 0 on the port (R126, R204). -/
theorem test_ff_reply_strobe_finds_none : (after (.ffReplyStrobe false) small).ff.out = some 0 := by decide

/-! ### Sweeps and start-up (chapters 1, 11) -/

/-- "A Fill and a request while it runs": wedge 2 keeps Excluded and takes the correction. -/
theorem test_sweep_step_of_fill :
    (after .sweepStep { withCell small 2 2 { state := .excluded } with
        exclusions := [(2, 2)]
        sweep := some { kind := .fill (-512) true, firstHead := 2, lastHead := 2, firstWedge := 0, lastWedge := 3,
                        nextHead := 2, nextWedge := 2 } }).cell 2 2
      = { working := -512, state := .excluded, dirty := true } := by decide

/-- The last step of a power-on sweep ends the test of a unit with nothing of its pair to wait for. -/
theorem test_sweep_step_ends_test :
    (after .sweepStep { State.reset with
        sweep := some { kind := .powerOn, firstHead := 0, lastHead := 7, firstWedge := 0, lastWedge := 511, nextHead := 7,
                        nextWedge := 511 }
        startup := { phase := .sweeping .pass, presence := .absent, checkOpen := false } }).startup.unitState = .ready := by
  decide +kernel

/-- Power-on in a secondary. -/
theorem test_power_on_secondary :
    (after (.powerOnReset true) small).startup.presence = .secondary ∧ (after (.powerOnReset true) small).startup.unitNo = 1 := by
  decide

/-- A secondary that comes out of power-on as a primary leaves PRES undriven (R199). -/
theorem test_power_on_releases_present :
    (after (.powerOnReset false) { small with startup := { unitNo := 1, strap := true, presLine := true } }).startup.presLine
      = false := by decide

/-- The memory test's end starts the power-on sweep. -/
theorem test_memory_test_end :
    ((after (.memoryTestEnd .mapFault) State.reset).sweep.map fun k => k.kind) = some .powerOn
      ∧ (after (.memoryTestEnd .mapFault) State.reset).startup.memoryFault = true := by decide +kernel

/-- A primary still Starting records its secondary Present. -/
theorem test_secondary_present_assert :
    (after .secondaryPresentAssert State.reset).startup.presence = .present := by decide

/-- PRES already asserted when the primary looks. -/
theorem test_present_seen : (after .presentSeen State.reset).startup.checkOpen = false := by decide

/-- The presence window ends with PRES released. -/
theorem test_presence_window_expiry : (after .presenceWindowExpiry State.reset).startup.presence = .absent := by decide

/-- "A pair at power-on": Passed is seen before the sweep's end. -/
theorem test_passed_seen :
    (after .passedSeen { State.reset with startup := { presence := .present, checkOpen := false } }).startup.verdict
      = .passed := by decide

/-- A pair that never passes: PairFault, code 81h, and the primary is Ready. -/
theorem test_pair_wait_expiry :
    let s := after .pairWaitExpiry { State.reset with
      startup := { presence := .present, checkOpen := false, phase := .swept .pass } }
    s.bench.flags.pairFault = true ∧ s.startup.testCode = 0x81 ∧ s.startup.unitState = .ready := by decide +kernel

/-- The secondary releases PRES. -/
theorem test_present_release :
    (after .presentRelease { ready with startup := { ready.startup with presLine := true } }).startup.presLine = false := by
  decide

/-! ### The Bench Link (chapters 8, 9, 10) -/

/-- A select-0 read drives the oldest word. -/
theorem test_return_queue_read :
    (after .returnQueueRead { small with bench := { small.bench with returnQueue := [7, 8] } }).bench.out = some 7 := by
  decide

/-- "A stream and a slow reader": the item at (3, 1) is read and its first word placed. -/
theorem test_stream_map_item_read :
    let b := (after .streamMapItemRead { small with bench := { small.bench with
      window := { firstHead := 3, lastHead := 3, firstWedge := 0, lastWedge := 1 }, order := { packed := false }
      pointer := some { head := 3, wedge := 1 }, returnQueue := [1, 2, 3]
      stream := some { kind := .map none none, words := [] } } }).bench
    b.returnQueue = [1, 2, 3, 0] ∧ b.pointer = none ∧ b.stream = some { kind := .map none none, words := [0, 0] } := by
  decide

/-- "Framing, acknowledgement": a select-1 read clears CommandRefused, whose enable is set, and leaves Revolution. -/
theorem test_status_read_acknowledges :
    (after .statusReadAcknowledge { small with bench := { small.bench with
      enables := { runEnded := true, commandRefused := true }, flags := { revolution := true, commandRefused := true } } }
      ).bench.flags = { revolution := true } := by decide

/-- The same sequence: a parameter word is held for Set Head Gain. -/
theorem test_bench_parameter_word :
    (after (.benchParameterWord 1 3) (after (.benchParameterWord 0 0x25) small)).bench.assembly
      = .assembling .setHeadGain [3] := by decide

/-- The same sequence: Null abandons it, Incomplete. -/
theorem test_null_abandons_assembly :
    let b := (after .null (after (.benchParameterWord 0 0x25) small)).bench
    b.assembly = .idle ∧ b.lastOutcome = .incomplete ∧ b.flags.commandRefused = true := by decide

/-- A command word that abandons a Select Unit in a unit that is not selected completes first the stream read claimed before it
(R180). -/
theorem test_null_completes_read_first :
    let b := (after .null { small with bench := { small.bench with
      selected := 1, assembly := .assembling .selectUnit [], pointer := some { head := 3, wedge := 31 }
      stream := some { kind := .map none none, words := [] } } }).bench
    b.returnQueue = [0] ∧ b.stream = none ∧ b.assembly = .idle ∧ b.lastOutcome = .incomplete := by decide

/-- "Writes under partial permissions": a Packed write where the Bench writer holds CS alone. -/
theorem test_map_data_word_without_wc :
    (after (.mapDataWord (-90)) { withCell small 0 6 { working := -105, published := -105, state := .loaded } with
      perms := { bench := (PerHead.all {}).set 0 { wc := false } }
      bench := { small.bench with assembly := .takingData none, pointer := some { wedge := 6 } } }).cell 0 6
      = { working := -105, published := -105, state := .loaded } := by decide

/-- A data word while a request waits: the Feed-Forward Server is granted first, and its reply shows the correction published
before the write (R19, R129). -/
theorem test_map_data_word_after_reply :
    let s := after (.mapDataWord 500) { withCell serving 1 10 { working := -40, published := -40, state := .converged } with
      exclusions := []
      ff := { server := .forming { head := 1, wedge := 9, replaced := false } }
      bench := { small.bench with assembly := .takingData none, pointer := some { head := 1, wedge := 10 } } }
    s.ff.server = .replying { value := 54, reason := .normal, offset := -30, replaced := false, injecting := true } false
      ∧ (s.cell 1 10).working = 500 := by decide

/-- A command word that names no command: BadParameter, but NotReady in a Failed unit, and Streaming during a stream (R181,
R203). -/
theorem test_unknown_command_refused_first :
    (after (.unknownCommand 5) { small with startup := { small.startup with unitState := .failed } }).bench.lastOutcome
      = .notReady
    ∧ (after (.unknownCommand 5) { small with bench := { small.bench with
        stream := some { kind := .copy, words := [1] } } }).bench.lastOutcome = .streaming := by decide

/-- A command word that names no command. -/
theorem test_unknown_command : (after (.unknownCommand 5) small).bench.lastOutcome = .badParameter := by decide

/-- "Framing, acknowledgement": Select Unit 1. -/
theorem test_select_unit : (after (.selectUnit 1) small).bench.selected = 1 := by decide

/-- "Self-Test during a test": the sweep is abandoned and a new test begins. -/
theorem test_self_test :
    let s := after (.selfTest false) { small with sweep := some (gridSweep .geometry) }
    s.sweep = none ∧ s.startup.unitState = .starting ∧ s.startup.phase = .memoryTest := by decide +kernel

/-- PRES asserted as the test begins is recorded, also where it is released in the window (R200). -/
theorem test_self_test_records_present :
    let s := after .presentRelease (after (.selfTest false) { small with startup := { small.startup with presLine := true } })
    s.startup.presence = .present ∧ s.startup.checkOpen = false := by decide +kernel

/-- Unit Reset ends a stream (R194). -/
theorem test_unit_reset :
    (after .unitReset { small with bench := { small.bench with
      stream := some { kind := .copy, words := [1] }, returnQueue := [2] } }).bench.returnQueue = [] := by decide +kernel

/-- Halt Stream empties the Return Queue (R173). -/
theorem test_halt_stream :
    (after .haltStream { small with bench := { small.bench with returnQueue := [2] } }).bench.returnQueue = [] := by decide

/-- Set Geometry sets the window to every configured cell (R18). -/
theorem test_set_geometry :
    (after (.setGeometry 4 32) ready).bench.window = { lastHead := 3, lastWedge := 31 } := by decide +kernel

/-- "A Fill and a request": -600 is clamped to -512. -/
theorem test_fill_clamps :
    ((after (.fill (-600) 1) { small with settings := { small.settings with cmax := 512 } }).sweep.map fun k => k.kind)
      = some (.fill (-512) true) := by decide

/-- Bounds past the geometry are clamped to it (R159). -/
theorem test_set_window :
    (after (.setWindow 2 9 0 40) small).bench.window = { firstHead := 2, lastHead := 3, lastWedge := 31 } := by decide

/-- Descending wedges start at the last wedge (R160). -/
theorem test_set_access_order :
    (after (.setAccessOrder 0 1 0) small).bench.pointer = some { wedge := 31 } := by decide

/-- "An import cut short": Write Map over one whole head is an import (R176). -/
theorem test_write_map_opens_import :
    (after .writeMap { small with bench := { small.bench with window := { firstHead := 2, lastHead := 2, lastWedge := 31 } } }
      ).bench.assembly = .takingData (some { head := 2, stage := .data 32 crcStart }) := by decide

/-- Write Map Continue takes data at the pointer as it stands, with no import (R168). -/
theorem test_write_map_continue : (after .writeMapContinue small).bench.assembly = .takingData none := by decide

/-- "A split item": two words are placed and the third is lost. -/
theorem test_read_map_item_split :
    let b := (after .readMapItem { withCell small 2 10
          { working := -105, published := -35, state := .learning, outliers := 1, dirty := true } with
      bench := { small.bench with
        order := { packed := false }, pointer := some { head := 2, wedge := 10 }, returnQueue := [1, 2] } }).bench
    b.returnQueue = [1, 2, 0xFF97, 0xFFDD] ∧ b.flags.returnLost = true := by decide

/-- Past the end of the window Stream Map is refused NotFound (R172). -/
theorem test_stream_map_past_end :
    (after (.streamMap 0) { small with bench := { small.bench with pointer := none } }).bench.lastOutcome = .notFound := by
  decide

/-- "Import fault holds a publication": Publish Now for a configured head. -/
theorem test_publish_now : ((after (.publishNow 0x0008) small).profile 3).publishPending = true := by decide

/-- Heads of the descriptor at or above HeadsInstalled are dropped (R84). -/
theorem test_enqueue_run :
    ((after (.enqueueRun 0x0215 0x001A 7100 1 3 64 2) small).runs.queue.map fun d => (d.tag, d.kind, d.heads.toList))
      = [(21, .gain, [1, 3])] := by decide

/-- Cancel Queued of a tag that no descriptor has (R86). -/
theorem test_cancel_queued : (after (.cancelQueued 22) small).bench.lastOutcome = .notFound := by decide

/-- "Halt Run against the concluding index": Aborted, HaltRun. -/
theorem test_halt_run :
    ((after .haltRun (running small (run .learn (one 0) .collect))).runs.results.map fun r => (r.outcome, r.cause))
      = [(.aborted, .haltRun)] := by decide +kernel

/-- An empty Result Queue (R108). -/
theorem test_take_result : (after .takeResult small).bench.lastOutcome = .noResult := by decide

/-- Feed-Forward On (R139). -/
theorem test_feed_forward_on : (after .feedForwardOn ready).settings.feedForward = true := by decide

/-- Feed-Forward Off (R140). -/
theorem test_feed_forward_off : (after .feedForwardOff small).settings.feedForward = false := by decide

/-- "A table through five commands": Exclude (2, 20). -/
theorem test_exclude :
    (after (.excludeWedge 2 20) { small with exclusions := [(0, 1), (0, 31), (3, 7)] }).exclusions
      = [(0, 1), (0, 31), (2, 20), (3, 7)] := by decide

/-- The same table: Include (0, 1) restores Loaded, since -12 is not 0. -/
theorem test_include :
    ((after (.includeWedge 0 1) { withCell small 0 1 { working := -12, published := -12, state := .excluded } with
      exclusions := [(0, 1), (0, 31)] }).cell 0 1).state = .loaded := by decide

/-- The same table: Clear Exclusions for heads 0 and 1. -/
theorem test_clear_exclusions :
    (after (.clearExclusions 3) { small with exclusions := [(0, 31), (2, 20), (3, 7)] }).exclusions = [(2, 20), (3, 7)] := by
  decide +kernel

/-- The same table: Read Exclusions gives three words. -/
theorem test_read_exclusions :
    (after .readExclusions { small with exclusions := [(2, 20), (3, 7)] }).bench.returnQueue = [2, 0x0414, 0x0607] := by
  decide

/-- "Writes under partial permissions": the Sweep writer of head 4 loses both. -/
theorem test_set_permissions :
    (after (.setPermissions 2 0x10 0) ready).perms.sweep.get 4 = { wc := false, cs := false } := by decide

/-- Read Permissions (12.7). -/
theorem test_read_permissions :
    (after .readPermissions { ready with perms := { sweep := (PerHead.all {}).set 4 { wc := false, cs := false } } }
      ).bench.returnQueue = [0xFFFF, 0xFFFF, 0xEFEF] := by decide

/-- Read Monitor of a head with none (R44). -/
theorem test_read_monitor : (after (.readMonitor 3) ready).bench.returnQueue = [3, 0, 0, 0] := by decide

/-- "A full FIFO on the primary": the first words of Read Capture Counts. -/
theorem test_read_capture_counts :
    (after .readCaptureCounts { small with
      capture := { unconfigured := 1, outOfRange := 1, overrun := 4 }, index := { rev := 1208 } }).bench.returnQueue
      = [0, 1, 1, 4] := by decide

/-- Read Identity: the part code, the revision and the unit (R189). -/
theorem test_read_identity : (after .readIdentity small).bench.returnQueue = [0x0816, 1, 0, 4] := by decide

/-- Read Settings: the first words (R190). -/
theorem test_read_settings : (after .readSettings small).bench.returnQueue = [4, 32, 8, 4] := by decide

/-- A depth is taken down to the nearest one offered (R191). -/
theorem test_set_setting : (after (.setSetting 0 31) small).settings.depth = 16 := by decide

/-- A gain below its range is clamped (R192). -/
theorem test_set_head_gain : ((after (.setHeadGain 3 100) small).profile 3).gain = 8192 := by decide

/-- An offset split other than 0 and 1 is refused and nothing is written (R192). -/
theorem test_set_head_options :
    (after (.setHeadOptions 1 7 1 2) small).profiles = small.profiles
      ∧ (after (.setHeadOptions 1 9 1 1) small).profiles
        = small.profiles.set 1 { lead := 7, inverted := true, offsetSplit := true } := by decide

/-- Clear Events clears the kinds it names (R185). -/
theorem test_clear_events :
    (after (.clearEvents 2) { small with bench := { small.bench with flags := { runEnded := true, revolution := true } } }
      ).bench.flags = { runEnded := true } := by decide

/-- "Framing, acknowledgement": Revolution is turned on, so its flag is cleared. -/
theorem test_set_event_enables :
    let b := (after (.setEventEnables 0x13) { small with bench := { small.bench with
      enables := { runEnded := true, commandRefused := true }, flags := { revolution := true, commandRefused := true } } }
      ).bench
    b.enables = { runEnded := true, commandRefused := true, revolution := true } ∧ b.flags = { commandRefused := true } := by
  decide


/-! ### Witnesses: every statement with hypotheses has a state that meets them -/

/-- The map law of a state with the geometry, the window and the pointer of `small`. -/
theorem small_mapLaw {s : State} (h1 : s.settings.headsInstalled = 4) (h2 : s.settings.wedges = 32)
    (h3 : mapWf s.map = true) (h4 : s.bench.window = small.bench.window) (h5 : s.bench.pointer = some {})
    (h6 : ∀ w, s.sweep = some w → w.legal) (h7 : s.exclusions = [])
    (h8 : ∀ c, s.runs.active = some c → c.verdicts = PerHead.all [] := by rintro _ ⟨⟩ <;> rfl) : s.MapLaw where
  geometry := by simp [Settings.geometryLegal, h1, h2]
  canonical := h3
  window := by rw [h4]; simp [Window.legal, h1, h2, small]
  pointer := by
    rw [h4, h5]; rintro _ ⟨⟩
    simp [Pointer.within, small]
  sweep := h6
  exclusions := by simp [State.exclusionsLegal, h7]
  verdicts := fun c hc h => by rw [h8 c hc]; simp

/-- A state whose whole map is blank and that has no exclusions. -/
theorem cell_of_blank {s : State} (h : s.map = PerHead.all []) (k : Head) (w : Nat) : s.cell k w = Cell.blank := by
  simp [State.cell, h]

theorem small_openLink : small.LinkOpen := ⟨rfl, rfl, rfl, by decide⟩

/-- The two answers of a step that ends in a next state. -/
theorem next_after {i : Instr} {s t : State} (h : exec i s = .next t) : exec i s = .next (after i s) := by
  rw [after, h]

theorem witness_StepRunsFrontCommand : ({ small with pending := [.null, .indexEvent] }).pending = .null :: [.indexEvent] := rfl

theorem witness_StepsWithoutTheirCondition :
    small.pending = [] ∧ small.publishing = [] ∧ small.index.timer = none ∧ small.runs.queue = [] ∧ small.capture.fifo = [] ∧ small.held = none
      ∧ small.autoRequests = [] ∧ (∀ q, small.ff.server ≠ .forming q) ∧ small.sweep = none
      ∧ (∀ left crc, small.bench.stream ≠ some { kind := .map left crc, words := [] })
      ∧ small.startup.unitState ≠ .starting := by
  refine ⟨rfl, rfl, rfl, rfl, rfl, rfl, rfl, ?_, rfl, ?_, ?_⟩ <;> simp [small, ready]

/-- A quotient half way between two whole numbers. -/
theorem witness_RoundedHalfAwayFromZero : 0 < 2 ∧ 2 * (rounded (-87) 2 * (2 : Nat) - (-87)).natAbs = 2 := by decide

/-- The lowest floor, with amplitudes at it. -/
theorem witness_PositionErrorBranches :
    16 ≤ 16 ∧ positionError 16 16384 8 7 0 0 = .weak ∧ positionError 16 16384 16 0 16 0 = .inconsistent
      ∧ positionError 16 16384 8 8 0 0 = .error 0 := by decide

/-- The gains on both sides of the clamp, at the largest position. -/
theorem witness_GainClampOnlyAtTheTop :
    gainLegal 8192 ∧ gainLegal 32751 ∧ gainLegal 32752 ∧ gainLegal 32767 ∧ (-512 : Int).natAbs ≤ 512
      ∧ scaleByGain 32751 (-512) = rounded (-512 * 32751) 16384 ∧ scaleByGain 32752 (-512) ≠ rounded (-512 * 32752) 16384 := by
  simp only [gainLegal]; decide

/-- A LEARN run on head 2, in a unit whose cells are at their power-on values. -/
def learning : State := running small (run .learn (one 2) .collect)

theorem learning_queueLaw : learning.QueueLaw := ⟨by decide, by decide, by decide, by decide, by decide, .nil⟩

theorem learning_runLaw : learning.RunLaw where
  active := fun _ => ⟨rfl, rfl⟩
  timer := rfl
  phase := by rintro c ⟨⟩; exact ⟨rfl, rfl⟩

theorem learning_mapLaw : learning.MapLaw := small_mapLaw rfl rfl (by decide) rfl rfl nofun rfl

/-- Two units that differ in their revolution count alone; and a primary with the absent unit 1 selected. -/
theorem witness_StatusWordCarriesItsFields :
    learning.QueueLaw ∧ learning.RunLaw ∧ ({ learning with index := { learning.index with rev := 7 } } : State).QueueLaw
      ∧ ({ learning with index := { learning.index with rev := 7 } } : State).RunLaw
      ∧ learning.statusWord = ({ learning with index := { learning.index with rev := 7 } } : State).statusWord
      ∧ let s : State := { small with bench := { small.bench with selected := 1 } }
        s.startup.unitNo = 0 ∧ s.bench.selected = 1 ∧ s.startup.presence = .absent ∧ s.startup.presLine = false :=
  ⟨learning_queueLaw, learning_runLaw, ⟨by decide, by decide, by decide, by decide, by decide, .nil⟩,
    ⟨fun _ => ⟨rfl, rfl⟩, rfl, by rintro c ⟨⟩; exact ⟨rfl, rfl⟩⟩, rfl, rfl, rfl, rfl, rfl⟩

/-- The run of `learning`, with an index pulse waiting. -/
def pulsed : State := { learning with pending := [.indexEvent] }

theorem pulsed_steps : ∃ t, step pulsed = .next t := ⟨_, rfl⟩

theorem witness_StepKeepsMapLaw : pulsed.MapLaw ∧ ∃ t, step pulsed = .next t :=
  ⟨small_mapLaw rfl rfl (by decide) rfl rfl nofun rfl, pulsed_steps⟩

theorem witness_StepKeepsExclusionLaw : pulsed.MapLaw ∧ pulsed.ExclusionLaw ∧ ∃ t, step pulsed = .next t :=
  ⟨witness_StepKeepsMapLaw.1, fun h w => by rw [cell_of_blank rfl]; exact ⟨nofun, nofun⟩, pulsed_steps⟩

theorem witness_StepKeepsCorrectionLaw : pulsed.MapLaw ∧ pulsed.CorrectionLaw ∧ ∃ t, step pulsed = .next t :=
  ⟨witness_StepKeepsMapLaw.1,
    { cmax := by decide
      cells := fun h w => by rw [cell_of_blank rfl]; simp [withinRange, Cell.blank]
      offsets := fun h => by fin_cases h <;> simp only [withinRange] <;> decide
      fills := nofun }, pulsed_steps⟩

theorem witness_StepKeepsGainLaw : pulsed.GainLaw ∧ ∃ t, step pulsed = .next t :=
  ⟨fun h => by fin_cases h <;> exact ⟨⟨by decide, by decide⟩, nofun⟩, pulsed_steps⟩

theorem witness_StepKeepsQueueLaw : pulsed.QueueLaw ∧ ∃ t, step pulsed = .next t :=
  ⟨⟨by decide, by decide, by decide, by decide, by decide, .nil⟩, pulsed_steps⟩

theorem witness_StepKeepsRunLaw : pulsed.RunLaw ∧ ∃ t, step pulsed = .next t :=
  ⟨⟨fun _ => ⟨rfl, rfl⟩, rfl, by rintro c ⟨⟩; exact ⟨rfl, rfl⟩⟩, pulsed_steps⟩

theorem witness_StepKeepsCountLaw : pulsed.MapLaw ∧ pulsed.CountLaw ∧ ∃ t, step pulsed = .next t :=
  ⟨witness_StepKeepsMapLaw.1,
    { depth := by right; right; left; rfl
      runDepth := by rintro c ⟨⟩; right; right; left; rfl
      held := nofun
      counts := fun h w => by
        rw [cell_of_blank rfl]
        exact ⟨by decide, (by rintro c ⟨⟩ _; show 0 < 8; decide), fun _ => rfl⟩
      outliers := fun h w => by rw [cell_of_blank rfl]; decide }, pulsed_steps⟩

/-- A request whose claim waits. -/
def claiming (s : State) : State := { s with ff := { server := .forming { head := 1, wedge := 9, replaced := false } } }

/-- A step of no port; and a step of the link that forms the reply of a claim that waits. -/
theorem witness_PortsAreReachedByTheirOwnStepsAlone :
    (WellFormed .indexEvent = true ∧ (∃ t, exec .indexEvent small = .next t) ∧ (∀ strap, Instr.indexEvent ≠ .powerOnReset strap)
      ∧ (∀ b w, Instr.indexEvent ≠ .captureWord b w) ∧ (∀ w, Instr.indexEvent ≠ .ffRequest w)
      ∧ Instr.indexEvent ≠ .ffOperation ∧ ∀ b, Instr.indexEvent ≠ .ffReplyStrobe b)
    ∧ exec .readMapItem (claiming small) = .next (after .readMapItem (claiming small))
      ∧ (after .readMapItem (claiming small)).ff ≠ (claiming small).ff :=
  ⟨⟨rfl, ⟨_, rfl⟩, nofun, nofun, nofun, nofun, nofun⟩, rfl, by decide⟩

/-- Head 2 is to be published with a new correction at wedge 10. -/
def publishing : State :=
  { small with
    map := (PerHead.all []).set 2 [(10, { working := -105, dirty := true })]
    profiles := small.profiles.set 2 { publishPending := true } }

/-- Head 2's publication is still to come, where the index published none. -/
def toCome : State :=
  { publishing with
    profiles := small.profiles
    publishing := [{ head := 2, rev := 510, marked := true, gainFound := false }] }

theorem toCome_mapLaw : toCome.MapLaw := small_mapLaw rfl rfl (by decide) rfl rfl nofun rfl

/-- The index publishes the correction; a sweep writes 0 over another; and a publication to come is made at the next index, or
with no step waiting. -/
theorem witness_PublishedCorrectionChanges :
    (publishing.MapLaw ∧ exec .indexEvent publishing = .next (after .indexEvent publishing)
      ∧ ((after .indexEvent publishing).cell 2 10).published ≠ (publishing.cell 2 10).published)
    ∧ let s : State := { small with
        map := (PerHead.all []).set 0 [(0, { published := 9 })], sweep := some (gridSweep .geometry) }
      (s.MapLaw ∧ exec .sweepStep s = .next (after .sweepStep s)
        ∧ ((after .sweepStep s).cell 0 0).published ≠ (s.cell 0 0).published)
    ∧ toCome.MapLaw ∧ ((after .indexEvent toCome).cell 2 10).published ≠ (toCome.cell 2 10).published
    ∧ toCome.pending = [] ∧ ∃ t, step toCome = .next t ∧ (t.cell 2 10).published ≠ (toCome.cell 2 10).published := by
  refine ⟨⟨small_mapLaw rfl rfl (by decide) rfl rfl nofun rfl, rfl, by decide +kernel⟩, ⟨?_, rfl, by decide +kernel⟩,
    toCome_mapLaw, by decide +kernel, rfl, _, rfl, by decide +kernel⟩
  refine small_mapLaw rfl rfl (by decide) rfl rfl ?_ rfl
  rintro w ⟨⟩
  simp [Sweep.legal, gridSweep, Config.gridWedges]

theorem updating_mapLaw (e : Int) : (updating e).MapLaw :=
  small_mapLaw rfl rfl (by show mapWf (updating 0).map = true; decide) rfl rfl nofun rfl

/-- A sample enters its cell at the operation that is granted; and before the access of a step of the link. -/
theorem witness_SamplesEnterCleanCellsAlone :
    (updating 133).MapLaw ∧ exec .learningOperation (updating 133) = .next (after .learningOperation (updating 133))
      ∧ ((after .learningOperation (updating 133)).cell 2 10).lastStamp = some 509
      ∧ ((updating 133).cell 2 10).lastStamp ≠ some 509
      ∧ Instr.readMapItem.onLink = true ∧ exec .readMapItem (updating 133) = .next (after .readMapItem (updating 133))
      ∧ ((after .readMapItem (updating 133)).cell 2 10).lastStamp = some 509 :=
  ⟨updating_mapLaw 133, rfl, by decide, by decide, rfl, rfl, by decide⟩

/-- To Starting by Self-Test, and to Ready at the end of a test. -/
theorem witness_UnitStateChanges :
    (exec (.selfTest false) small = .next (after (.selfTest false) small)
      ∧ (after (.selfTest false) small).startup.unitState ≠ small.startup.unitState)
    ∧ let s : State := { State.reset with startup := { phase := .swept .pass } }
      exec .presenceWindowExpiry s = .next (after .presenceWindowExpiry s)
        ∧ (after .presenceWindowExpiry s).startup.unitState ≠ s.startup.unitState :=
  ⟨⟨rfl, by decide +kernel⟩, rfl, by decide +kernel⟩

theorem witness_ReturnQueueKeepsItsWords :
    WellFormed .returnQueueRead = true ∧ (∃ t, exec .returnQueueRead small = .next t)
      ∧ Instr.returnQueueRead ≠ .haltStream ∧ Instr.returnQueueRead ≠ .unitReset
      ∧ ∀ strap, Instr.returnQueueRead ≠ .powerOnReset strap :=
  ⟨rfl, ⟨_, rfl⟩, nofun, nofun, nofun⟩

theorem witness_RefusalsEventsAndDiscards :
    small.runs.active = none ∧ learning.runs.active = some (run .learn (one 2) .collect) := ⟨rfl, rfl⟩

/-- A unit whose Stream Map has claimed its next read. -/
def claimed (s : State) : State :=
  { s with bench := { s.bench with stream := some { kind := .map none none, words := [] } } }

theorem claimed_waits (s : State) : (claimed s).ReadWaits := ⟨none, none, rfl⟩

theorem small_no_read : ¬ small.ReadWaits := by simp [State.ReadWaits, small, ready]

/-- A primary, with unit 1 selected; and one that assembles a Select Unit, with a stream read waiting and with none. -/
theorem witness_UnselectedUnitIgnores :
    let s : State := { small with bench := { small.bench with selected := 1 } }
    let t : State := { small with bench := { small.bench with selected := 1, assembly := .assembling .selectUnit [] } }
    (s.bench.selected ≠ s.startup.unitNo ∧ (∀ ws, s.bench.assembly ≠ .assembling .selectUnit ws)
      ∧ CmdCode.ofWord 0 ≠ some .selectUnit ∧ CmdCode.ofWord 0 ≠ some .selfTest
      ∧ Instr.linkWords .null = some (.null, []) ∧ CmdCode.null ≠ .selectUnit ∧ CmdCode.null ≠ .selfTest)
    ∧ (t.bench.selected ≠ t.startup.unitNo ∧ t.bench.assembly = .assembling .selectUnit [] ∧ ¬ t.ReadWaits)
    ∧ (claimed t).bench.selected ≠ t.startup.unitNo ∧ (claimed t).bench.assembly = .assembling .selectUnit []
      ∧ (claimed t).ReadWaits := by
  refine ⟨⟨by decide, nofun, by decide, by decide, rfl, by decide, by decide⟩, ⟨by decide, rfl, ?_⟩, by decide, rfl,
    claimed_waits _⟩
  simp [State.ReadWaits, small, ready]

/-- A Failed unit, a stream, a Starting unit and a sweep, each with the link's words its own. -/
theorem witness_RefusalsBeforeOwnTerms :
    let failed : State := { small with startup := { small.startup with unitState := .failed } }
    let streaming : State := { small with bench := { small.bench with stream := some { kind := .copy, words := [1] } } }
    let sweeping : State := { small with sweep := some (gridSweep .geometry) }
    Instr.linkWords .readMapItem = some (.readMapItem, []) ∧ CmdCode.readMapItem ≠ .selectUnit
      ∧ CmdCode.readMapItem ≠ .selfTest
      ∧ (∀ s ∈ [failed, streaming, State.reset, sweeping], s.bench.selected = s.startup.unitNo ∧ s.bench.assembly = .idle
        ∧ ∀ left crc, s.bench.stream ≠ some { kind := .map left crc, words := [] })
      ∧ failed.startup.unitState = .failed
      ∧ streaming.startup.unitState ≠ .failed ∧ streaming.bench.stream.isSome = true ∧ CmdCode.readMapItem ≠ .null
      ∧ CmdCode.readMapItem ≠ .haltStream ∧ CmdCode.readMapItem ≠ .unitReset
      ∧ State.reset.startup.unitState = .starting ∧ State.reset.bench.stream = none
      ∧ sweeping.startup.unitState ≠ .failed ∧ sweeping.bench.stream = none ∧ sweeping.sweep.isSome = true := by
  refine ⟨rfl, by decide, by decide, ?_, rfl, by decide, rfl, by decide, by decide, by decide, rfl, rfl, by decide, rfl, rfl⟩
  simp [small, ready, State.reset]

/-- A command with a parameter and no read waiting; and one with none, while a read waits. -/
theorem witness_CommandEqualsItsWords :
    (Instr.linkWords (.selectUnit 1) = some (.selectUnit, [1]) ∧ ¬ small.ReadWaits)
      ∧ (Instr.linkWords .null = some (.null, []) ∧ (claimed small).ReadWaits)
      ∧ ∀ strap, Instr.selfTest false = .selfTest strap → strap = small.startup.strap := by
  refine ⟨⟨rfl, small_no_read⟩, ⟨rfl, claimed_waits _⟩, ?_⟩
  rintro _ ⟨⟩; rfl

/-- A command in assembly, a Write Map, an import that was judged and one that was not, with a read waiting and with none; a
command in the selected unit, and a Select Unit in another; a word that opens an assembly, and one that names no command. -/
theorem witness_CommandEndsAssembly :
    let st := fun a : Assembly => ({ small with bench := { small.bench with assembly := a } } : State)
    let other : State := { small with bench := { small.bench with selected := 1 } }
    Instr.linkWords .null = some (.null, []) ∧ CmdCode.null ≠ .selfTest
      ∧ Instr.linkWords (.selfTest false) = some (.selfTest, [])
      ∧ (∀ a, (st a).bench.selected = (st a).startup.unitNo ∧ ¬ (st a).ReadWaits
        ∧ (claimed (st a)).bench.selected = (st a).startup.unitNo ∧ (claimed (st a)).ReadWaits
        ∧ (st a).bench.assembly = a)
      ∧ ({ head := 1, stage := .judged } : Import).stage = .judged
      ∧ ({ head := 1, stage := .data 1 crcStart } : Import).stage ≠ .judged
      ∧ (other.bench.selected ≠ other.startup.unitNo ∧ Instr.linkWords (.selectUnit 1) = some (.selectUnit, [1]))
      ∧ CmdCode.ofWord 0x25 = some .setHeadGain ∧ CmdCode.ofWord 0 = some .null ∧ CmdCode.null.paramCount = 0
      ∧ CmdCode.setHeadGain.paramCount ≠ 0 ∧ CmdCode.ofWord 5 = none := by
  refine ⟨rfl, by decide, rfl, fun a => ⟨rfl, ?_, rfl, claimed_waits _, rfl⟩, rfl, nofun, ⟨by decide, rfl⟩, by decide⟩
  simp [State.ReadWaits, small, ready]


/-- The four states of the assembly that the clauses name, the longest partial frames among them. -/
theorem witness_CaptureWordAssembles :
    let st := fun ws : List Word => ({ small with capture := { small.capture with frame := ws } } : State)
    (st []).capture.frame = [] ∧ (st [1]).capture.frame ≠ [] ∧ 1 ≤ (st [1]).capture.frame.length
      ∧ (st [1]).capture.frame.length ≤ 4 ∧ 1 ≤ (st [1, 2, 3, 4]).capture.frame.length
      ∧ (st [1, 2, 3, 4]).capture.frame.length ≤ 4 ∧ (st [1, 2, 3, 4, 5]).capture.frame ≠ [] := by decide

theorem witness_CompleteFrameJudged : (framed 0x114C).capture.frame = [0x114C, 7100, 1500, 900, 0] := rfl

/-- Head 2 is due, with its last wedge and the first past it; head 3 is not due, and head 4 is not installed. An index of
`publishing` publishes every due head; scheduled to publish none at once, it leaves head 2's publication to come. A publication
to come of a configured head, and of one that is not. -/
theorem witness_IndexPublishes :
    (publishing.MapLaw ∧ publishing.runs.active = none ∧ publishing.publishing = [])
      ∧ ((2 : Head).val < publishing.settings.headsInstalled ∧ (publishing.profile 2).publishPending = true
        ∧ (publishing.profile 2).importFault = false ∧ 31 < publishing.settings.wedges ∧ publishing.settings.wedges ≤ 32)
      ∧ ((publishing.profile 3).autoPublish = false ∧ (publishing.profile 3).publishPending = false
        ∧ publishing.settings.headsInstalled ≤ (4 : Head).val)
      ∧ (publishing.publishAtOnce = [] ∧ (2 : Head) ∈ [(2 : Head)].take 8 ∧ (3 : Head) ∉ [(2 : Head)].take 8
        ∧ (2 : Head) ∉ [(2 : Head)].take 0)
      ∧ (toCome.MapLaw ∧ toCome.pending = [] ∧ toCome.publishing = { head := 2, rev := 510, marked := true, gainFound := false } :: []
        ∧ (2 : Head).val < toCome.settings.headsInstalled)
      ∧ let s : State := { toCome with publishing := [{ head := 5, rev := 510, marked := true, gainFound := false }] }
        s.MapLaw ∧ s.pending = [] ∧ s.settings.headsInstalled ≤ (5 : Head).val :=
  ⟨⟨small_mapLaw rfl rfl (by decide) rfl rfl nofun rfl, rfl, rfl⟩, by decide, by decide, by decide,
    ⟨toCome_mapLaw, rfl, rfl, by decide⟩, small_mapLaw rfl rfl (by decide) rfl rfl nofun rfl, rfl, by decide⟩

/-- A settle phase whose counter stands at 1 and at 2, and a PLUS_COLLECT. -/
theorem witness_IndexStepsSettling :
    let one2 := running small (run .learn (one 2) .settle)
    let two := running small { run .gain (one 2) .plusSettle with settleCounter := 2 }
    let plus := running small (run .gain (one 2) .plusCollect)
    one2.runs.active = some (run .learn (one 2) .settle) ∧ (run .learn (one 2) .settle).phase = .settle
      ∧ two.runs.active = some { run .gain (one 2) .plusSettle with settleCounter := 2 }
      ∧ plus.runs.active = some (run .gain (one 2) .plusCollect) ∧ (run .gain (one 2) .plusCollect).phase = .plusCollect :=
  ⟨rfl, rfl, rfl, rfl, rfl⟩

/-- Every cell of a run's heads is Converged, where the run has none; and none is, in `learning`. -/
theorem witness_IndexInCollect :
    let c := run .learn (one 2) .collect
    let v := run .verify (one 2) .collect
    let st := running small
    (∀ d : RunCtx, d.verdicts = PerHead.all [] → (st d).MapLaw ∧ (st d).runs.active = some d)
      ∧ (c.phase = .collect ∧ c.desc.kind = .learn ∧ v.phase = .collect ∧ v.desc.kind = .verify)
      ∧ (({ v with phaseRevs := 6 } : RunCtx).phaseRevs + 1 < v.depth ∧ v.depth ≤ ({ v with phaseRevs := 7 } : RunCtx).phaseRevs + 1)
      ∧ (∀ (h : Head) (w : Nat), ({ c with heads := PerHead.all false } : RunCtx).heads.get h = true → w < 32 →
          ((st c).cell h w).state = .converged)
      ∧ ¬ (∀ (h : Head) (w : Nat), c.heads.get h = true → w < (st c).settings.wedges →
          ((st c).cell h w).state = .excluded ∨ ((st c).cell h w).state = .suspect ∨ ((st c).cell h w).state = .converged)
      ∧ (({ c with phaseRevs := 1 } : RunCtx).phaseRevs + 1 < c.desc.budget
        ∧ c.desc.budget ≤ ({ c with phaseRevs := 2 } : RunCtx).phaseRevs + 1)
      ∧ (c.desc.noRetry = false ∧ c.retries < (st c).settings.retryLimit
        ∧ (st c).settings.retryLimit ≤ ({ c with retries := 1 } : RunCtx).retries) := by
  refine ⟨fun d hd => ⟨small_mapLaw rfl rfl (by show mapWf small.map = true; decide) rfl rfl nofun rfl (by rintro _ ⟨⟩; exact hd), rfl⟩,
    ⟨rfl, rfl, rfl, rfl⟩, by decide, ?_, ?_, by decide, by decide⟩
  · intro h w hh; simp at hh
  · intro h; have := h 2 31 (by decide) (by decide); revert this; decide

/-- Before and at the last revolution of MINUS_COLLECT, with a head in the run and one outside it. -/
theorem witness_GainRunEnds :
    let c := run .gain (one 3) .minusCollect
    (running small c).runs.active = some c ∧ c.phase = .minusCollect ∧ c.phaseRevs + 1 < c.desc.phaseRevs
      ∧ c.desc.phaseRevs ≤ ({ c with phaseRevs := 1 } : RunCtx).phaseRevs + 1
      ∧ c.heads.get 3 = true ∧ c.heads.get 2 = false := by decide

theorem witness_ConclusionEffects : learning.MapLaw ∧ (one 2).get 2 = true ∧ (one 2).get 3 = false :=
  ⟨learning_mapLaw, rfl, rfl⟩

theorem learning_openLink : learning.LinkOpen := ⟨rfl, rfl, rfl, by decide⟩

theorem witness_RunsEndedEarly :
    learning.runs.active = some (run .learn (one 2) .collect) ∧ learning.index.timer = some 100 ∧ learning.LinkOpen
      ∧ small.LinkOpen ∧ small.runs.active = none :=
  ⟨rfl, rfl, learning_openLink, small_openLink, rfl⟩

/-- One descriptor waits; its head has no import fault, or has one. -/
theorem witness_RunStarts :
    let s : State := { small with runs := { queue := [desc .learn (one 2)] } }
    let t : State := { s with profiles := s.profiles.set 2 { importFault := true } }
    (∀ u ∈ [s, t], u.MapLaw ∧ u.runs.active = none ∧ u.runs.queue = [desc .learn (one 2)] ∧ u.runs.results.length < 8
      ∧ u.startup.unitState = .ready ∧ u.settings.feedForward = true ∧ u.sweep = none)
    ∧ ((desc .learn (one 2)).heads.get 2 && !(s.profile 2).importFault) = true
    ∧ ∀ h : Head, ((desc .learn (one 2)).heads.get h && !(t.profile h).importFault) = false := by
  refine ⟨?_, by decide, by decide⟩
  intro u hu
  have hm : u.MapLaw := by
    simp only [List.mem_cons, List.not_mem_nil, or_false] at hu
    rcases hu with rfl | rfl <;> exact small_mapLaw rfl rfl (by decide) rfl rfl nofun rfl
  simp only [List.mem_cons, List.not_mem_nil, or_false] at hu
  rcases hu with rfl | rfl <;> exact ⟨hm, rfl, rfl, by decide, rfl, rfl, rfl⟩

/-- A tag that a queued descriptor has, and one that none has. -/
theorem witness_RunQueueCommands :
    let s : State := { small with runs := { queue := [desc .learn (one 2)] } }
    s.LinkOpen ∧ (∃ d ∈ s.runs.queue, d.tag = (40 : Word).toNat % 256) ∧ ∀ d ∈ s.runs.queue, d.tag ≠ (41 : Word).toNat % 256 :=
  ⟨⟨rfl, rfl, rfl, by decide⟩, by decide, by decide⟩

theorem witness_RecordTaken :
    let r : Record := { head := 1, wedge := 41, track := 7100, a := 1500, b := 900, c := 0, d := 0, stamp := 5 }
    let s : State := { small with capture := { fifo := [r] } }
    s.held = none ∧ s.capture.fifo = r :: [] := ⟨rfl, rfl⟩

/-- The record that `updating` holds. -/
def held (e : Int) : HeldRecord := { head := 2, wedge := 10, track := 7100, stamp := 509, e := e, run := 1 }

/-- The run that `updating` holds. -/
def updatingRun : RunCtx := run .learn (one 2) .collect

/-- No run is active; and the sample of a run off its track fails the first check, with its stamp that of the last sample. -/
theorem witness_SampleChecksInOrder :
    let s : State := { small with held := some (held 133) }
    let t : State := { updating 133 with held := some { held 133 with track := 7101, stamp := 508 } }
    (s.held = some (held 133) ∧ (∀ q, s.ff.server ≠ .forming q) ∧ s.runs.active = none)
    ∧ t.held = some { held 133 with track := 7101, stamp := 508 } ∧ (∀ q, t.ff.server ≠ .forming q)
      ∧ t.runs.active = some updatingRun ∧ updatingRun.heads.get 2 = true ∧ updatingRun.serial = (held 133).run
      ∧ updatingRun.phase = .collect ∧ updatingRun.desc.kind ≠ .gain
      ∧ (let cell := t.cell 2 10
         let checks : List (Discard × Bool) :=
           [(.offTrack, (7101 : Word) != updatingRun.desc.track),
             (.early, match updatingRun.collectStart with | none => false | some q => earlier 508 q),
             (.suspect, cell.state == .suspect),
             (.excluded, cell.state == .excluded),
             (.stale, cell.dirty || earlier 508 cell.effRev),
             (.duplicate, cell.lastStamp == some 508),
             (.outlier, decide (t.settings.outlierLimit < (held 133).e.natAbs))]
         checks.find? Prod.snd = some (.offTrack, true) ∧ (checks.tail.find? Prod.snd = some (.duplicate, true)))
      ∧ Discard.offTrack ≠ .outlier := by
  refine ⟨⟨rfl, by simp [small, ready], rfl⟩, rfl, by simp [updating, withCell, running, small, ready], rfl, ?_⟩
  decide

/-- What the statements about a sample that passes the first six checks ask of the unit. -/
theorem updating_passes (e : Int) :
    (updating e).MapLaw ∧ (updating e).held = some (held e) ∧ (∀ q, (updating e).ff.server ≠ .forming q)
      ∧ (updating e).runs.active = some updatingRun ∧ updatingRun.heads.get (held e).head = true
      ∧ updatingRun.serial = (held e).run ∧ updatingRun.phase = .collect ∧ updatingRun.desc.kind ≠ .gain
      ∧ (updating e).configured (held e).head (held e).wedge = true ∧ (held e).track = updatingRun.desc.track
      ∧ (∀ q, updatingRun.collectStart = some q → earlier (held e).stamp q = false)
      ∧ ((updating e).cell 2 10).state ≠ .suspect ∧ ((updating e).cell 2 10).state ≠ .excluded
      ∧ ((updating e).cell 2 10).dirty = false ∧ earlier (held e).stamp ((updating e).cell 2 10).effRev = false
      ∧ ((updating e).cell 2 10).lastStamp ≠ some (held e).stamp := by
  refine ⟨updating_mapLaw e, rfl, by simp [updating, withCell, running, small, ready], rfl, rfl, rfl, rfl, by decide,
    rfl, rfl, ?_, ?_⟩
  · rintro q ⟨⟩; show earlier 509 501 = false; decide
  · have h : (updating e).cell 2 10 = (updating 0).cell 2 10 := rfl
    rw [h]; show _ ∧ _ ∧ _ ∧ earlier 509 _ = false ∧ _ ≠ some (509 : Rev); decide

/-- The least error outside the outlier limit, with CS and without. -/
theorem witness_OutlierSamples :
    (updating 385).settings.outlierLimit < (held 385).e.natAbs
      ∧ ((updating 385).perms.learning.get 2).cs = true
      ∧ (({ updating 385 with perms := { learning := (PerHead.all {}).set 2 { cs := false } } } : State).perms.learning.get
        2).cs = false := by decide

/-- The greatest error inside the limit, with the depth reached and not reached. -/
theorem witness_AdmittedSamples :
    (held (-384)).e.natAbs ≤ (updating (-384)).settings.outlierLimit
      ∧ updatingRun.depth ≤ ((updating (-384)).cell 2 10).count + 1
      ∧ ((withCell (updating (-384)) 2 10 { count := 6 }).cell 2 10).count + 1 < updatingRun.depth := by decide

theorem witness_GainSamples :
    let c := run .gain (one 2) .minusCollect
    let s : State := { running small c with held := some (held 133) }
    s.held = some (held 133) ∧ (∀ q, s.ff.server ≠ .forming q) ∧ s.runs.active = some c
      ∧ c.heads.get (held 133).head = true ∧ c.serial = (held 133).run ∧ c.phase = .minusCollect ∧ c.desc.kind = .gain := by
  refine ⟨rfl, by simp [running, small, ready], rfl, rfl, rfl, rfl, rfl⟩

/-- The five judgements, the wedges on both sides of W among them; a target that is good, one between good wedges, and one of a
head with no good wedge. -/
theorem witness_ReplyComposed :
    let asking := fun (s : State) (h : Head) (w : Nat) => ({ s with
      ff := { server := .forming { head := h, wedge := w, replaced := false } } } : State)
    (∀ s h w, (asking s h w).ff.server = .forming { head := h, wedge := w, replaced := false })
      ∧ (asking State.reset 0 0).startup.unitState ≠ .ready
      ∧ ((asking ready 0 0).startup.unitState = .ready ∧ (asking ready 0 0).settings.feedForward = false)
      ∧ ((asking small 4 0).startup.unitState = .ready ∧ (asking small 4 0).settings.feedForward = true
        ∧ (asking small 4 0).settings.headsInstalled ≤ (4 : Head).val)
      ∧ ((3 : Head).val < (asking small 3 32).settings.headsInstalled ∧ (asking small 3 32).settings.wedges ≤ 32)
      ∧ 31 < (asking small 3 31).settings.wedges
      ∧ ((asking serving 1 10).cell 1 ((10 + 1) % 32)).state ≠ .excluded
      ∧ ¬ ((asking serving 1 9).cell 1 ((9 + 1) % 32)).state ≠ .excluded
      ∧ ((asking serving 1 9).cell 1 ((10 + 32 - 1) % 32)).state ≠ .excluded
      ∧ ((asking serving 1 9).cell 1 ((10 + 1) % 32)).state ≠ .excluded
      ∧ ∀ w, w < 32 → ¬ ((asking { small with
          map := (PerHead.all []).set 1 ((List.range 32).map fun w => (w, { state := .excluded })) } 1 9).cell 1 w).state
          ≠ .excluded := by
  refine ⟨fun _ _ _ => rfl, ?_⟩
  decide

theorem witness_ReplyStrobes :
    let r : FFReply := { value := 2047, reason := .normal, offset := -2047, replaced := false, injecting := false }
    ({ small with ff := { server := .replying r false } } : State).ff.server = .replying r false
      ∧ ({ small with ff := { server := .replying r true } } : State).ff.server = .replying r true
      ∧ (∀ p taken, small.ff.server ≠ .replying p taken) ∧ withinRange r.value ∧ withinRange r.offset := by
  refine ⟨rfl, rfl, by simp [small, ready], ?_⟩
  simp [withinRange]

/-- A Fill before the last wedge, at the last wedge of a head that is not the last, and at its last cell; and the last cell
of a geometry sweep and of a power-on sweep. -/
theorem witness_SweepWrites :
    let k := fun (kind : SweepKind) (h : Head) (w : Nat) =>
      ({ kind := kind, firstHead := 0, lastHead := 1, firstWedge := 0, lastWedge := 3, nextHead := h, nextWedge := w } : Sweep)
    let st := fun (x : Sweep) => ({ small with
      sweep := some x, startup := { small.startup with phase := .sweeping .pass } } : State)
    (∀ (kind : SweepKind) (h : Head) (w : Nat), h.val ≤ 1 → w ≤ 3 → (st (k kind h w)).MapLaw)
      ∧ (∀ x, (st x).sweep = some x ∧ (∀ q, (st x).ff.server ≠ .forming q) ∧ (st x).held = none
        ∧ (∀ left crc, (st x).bench.stream ≠ some { kind := .map left crc, words := [] })
        ∧ (st x).startup.phase = .sweeping .pass)
      ∧ (k (.fill 9 true) 0 2).nextWedge < (k (.fill 9 true) 0 2).lastWedge
      ∧ (k (.fill 9 true) 0 3).nextWedge = (k (.fill 9 true) 0 3).lastWedge
      ∧ (k (.fill 9 true) 0 3).nextHead.val < (k (.fill 9 true) 0 3).lastHead.val
      ∧ (k .geometry 1 3).nextWedge = (k .geometry 1 3).lastWedge ∧ (k .geometry 1 3).nextHead = (k .geometry 1 3).lastHead
      ∧ (∀ v loaded, (k .geometry 1 3).kind ≠ .fill v loaded) ∧ (k .powerOn 1 3).kind = .powerOn := by
  refine ⟨fun kind h w h1 h2 => ?_, fun x => ⟨rfl, by simp [small, ready], rfl, by simp [small, ready], rfl⟩, by decide, rfl,
    by decide, rfl, rfl, nofun, rfl⟩
  refine small_mapLaw rfl rfl (by show mapWf small.map = true; decide) rfl rfl ?_ rfl
  rintro _ ⟨⟩
  refine ⟨Nat.zero_le _, h1, Nat.zero_le _, h2, ?_⟩
  show 3 < 512
  decide

theorem reset_mapLaw : State.reset.MapLaw where
  geometry := by simp [Settings.geometryLegal, State.reset]
  canonical := by decide
  window := by simp [Window.legal, State.reset]
  pointer := by rintro _ ⟨⟩; simp [Pointer.within, State.reset]
  sweep := nofun
  exclusions := by simp [State.exclusionsLegal, State.reset]
  verdicts := by intro c h; simp [State.reset] at h

theorem witness_PowerOnAndMemoryTest :
    State.reset.MapLaw ∧ State.reset.startup.unitState = .starting ∧ State.reset.startup.phase = .memoryTest :=
  ⟨reset_mapLaw, rfl, rfl⟩

/-- A unit that is not in a test; a primary that checks for its secondary, with PRES released and asserted, before and after
its sweep has ended, and with Passed seen or not; and one that waits for Passed. -/
theorem witness_PairHandshake :
    let st := fun (p : TestPhase) (v : PairVerdict) (line : Bool) => ({ State.reset with
      startup := { phase := p, verdict := v, presLine := line } } : State)
    let wait := fun p : TestPhase => ({ State.reset with
      startup := { phase := p, presence := .present, checkOpen := false } } : State)
    small.startup.unitState ≠ .starting
      ∧ (∀ p v line, (st p v line).startup.unitNo = 0 ∧ (st p v line).startup.unitState = .starting
        ∧ (st p v line).startup.checkOpen = true ∧ (st p v line).startup.presLine = line
        ∧ (st p v line).startup.verdict = v ∧ (st p v line).startup.phase = p)
      ∧ (∀ own, TestPhase.memoryTest ≠ .swept own) ∧ PairVerdict.passed ≠ .waiting
      ∧ ∀ p, (wait p).startup.unitNo = 0 ∧ (wait p).startup.unitState = .starting ∧ (wait p).startup.verdict = .waiting
        ∧ (wait p).startup.checkOpen = false ∧ (wait p).startup.presence = .present ∧ (wait p).startup.phase = p :=
  ⟨by decide, fun _ _ _ => ⟨rfl, rfl, rfl, rfl, rfl, rfl⟩, nofun, nofun, fun _ => ⟨rfl, rfl, rfl, rfl, rfl, rfl⟩⟩

theorem witness_SelfTestEffects :
    small.bench.assembly = .idle ∧ (∀ left crc, small.bench.stream ≠ some { kind := .map left crc, words := [] })
      ∧ small.runs.active = none ∧ learning.runs.active = some (run .learn (one 2) .collect)
      ∧ small.startup.memoryFault = false
      ∧ ({ small with startup := { small.startup with memoryFault := true } } : State).startup.memoryFault = true := by
  refine ⟨rfl, by simp [small, ready], rfl, rfl, rfl, rfl⟩

theorem witness_UnitResetEffects :
    learning.MapLaw ∧ learning.bench.selected = learning.startup.unitNo ∧ learning.bench.assembly = .idle
      ∧ (∀ left crc, learning.bench.stream ≠ some { kind := .map left crc, words := [] })
      ∧ learning.startup.unitState ≠ .failed := by
  refine ⟨learning_mapLaw, rfl, rfl, ?_, by decide⟩
  simp [learning, running, small, ready]

/-- The unit numbers on both sides of the pair; an open link; a unit that drives the link, with a word and without; and one
that does not. -/
theorem witness_LinkReadsAndFlags :
    (small.bench.assembly = .idle ∧ (∀ left crc, small.bench.stream ≠ some { kind := .map left crc, words := [] })
      ∧ (1 : Word).toNat ≤ 1 ∧ 2 ≤ (2 : Word).toNat)
    ∧ small.LinkOpen ∧ small.bench.selected = small.startup.unitNo ∧ small.startup.unitNo = 0
    ∧ small.bench.returnQueue = []
    ∧ ({ small with bench := { small.bench with returnQueue := [7] } } : State).bench.returnQueue = 7 :: []
    ∧ ({ small with bench := { small.bench with selected := 1 } } : State).bench.selected ≠ small.startup.unitNo := by
  refine ⟨⟨rfl, by simp [small, ready], by decide, by decide⟩, small_openLink, rfl, rfl, rfl, rfl, by decide⟩

theorem small_openMap : small.MapOpen := ⟨small_openLink, rfl, rfl⟩

/-- A stream with one word more than there is room for, and one with as many; a Stream Map with a read left and with none;
no stream; an open link with a result and without, and with the pointer in the window and past it; and a read claimed. -/
theorem witness_StreamsPlaceTheirWords :
    let st := fun (k : StreamKind) (ws : List Word) => ({ small with bench := { small.bench with
      stream := some { kind := k, words := ws }, returnQueue := [1, 2] } } : State)
    let r : RunResult := { tag := 1, kind := .learn, outcome := .complete, cause := .none, collectRevs := 1, retries := 0,
                           totals := {}, entries := [] }
    (4 - (st .copy [7, 8, 9]).bench.returnQueue.length < [7, 8, 9].length)
      ∧ ([7, 8].length ≤ 4 - (st .result [7, 8]).bench.returnQueue.length)
      ∧ ((some 1 : Option Nat) ≠ some 0 ∧ (st (.map (some 1) none) []).bench.pointer ≠ none)
      ∧ small.bench.stream = none ∧ small.LinkOpen ∧ small.runs.results = []
      ∧ ({ small with runs := { results := [r] } } : State).LinkOpen
      ∧ small.MapOpen ∧ small.bench.pointer = some {}
      ∧ ({ small with bench := { small.bench with pointer := none } } : State).MapOpen
      ∧ (st (.map none none) []).bench.stream = some { kind := .map none none, words := [] }
      ∧ (∀ q, (st (.map none none) []).ff.server ≠ .forming q) ∧ (st (.map none none) []).held = none := by
  refine ⟨by decide, by decide, by decide, rfl, small_openLink, rfl, ⟨rfl, rfl, rfl, by decide⟩, small_openMap, rfl,
    ⟨⟨rfl, rfl, rfl, by decide⟩, rfl, rfl⟩, rfl, by simp [small, ready], rfl⟩

/-- Heads on both sides of 8, a lead at its greatest, and a wedge on both sides of W. -/
theorem witness_ReadoutWords :
    small.LinkOpen ∧ 8 ≤ (8 : Word).toNat ∧ (7 : Word).toNat < 8
      ∧ (({ small with profiles := small.profiles.set 1 { lead := 7 } } : State).profile 1).lead ≤ 7
      ∧ small.configured 3 31 = true ∧ small.configured 3 32 = false :=
  ⟨small_openLink, by decide, by decide, by decide, by decide, by decide⟩

/-- A unit that is selected, and one that assembles a Select Unit and is not; the assembly Idle, taking data, and with a
parameter that is not the last and one that is; with a read waiting and with none; a word that names no command and one that
opens an assembly. -/
theorem witness_SingleWords :
    let st := fun a : Assembly => ({ small with bench := { small.bench with assembly := a } } : State)
    let other : State := { st (.assembling .selectUnit []) with
      bench := { (st (.assembling .selectUnit [])).bench with selected := 1 } }
    (∀ a, (st a).bench.selected = (st a).startup.unitNo ∧ (st a).bench.assembly = a ∧ ¬ (st a).ReadWaits
        ∧ (claimed (st a)).ReadWaits)
      ∧ (other.bench.selected ≠ other.startup.unitNo ∧ other.bench.assembly = .assembling .selectUnit [])
      ∧ CmdCode.ofWord 5 = none ∧ CmdCode.ofWord 0x25 = some .setHeadGain ∧ 1 ≤ CmdCode.setHeadGain.paramCount
      ∧ ([] : List Word).length + 1 < CmdCode.setHeadGain.paramCount
      ∧ CmdCode.setHeadGain.paramCount ≤ [(3 : Word)].length + 1
      ∧ Instr.linkWords (.setHeadGain 3 20000) = some (.setHeadGain, [3] ++ [20000]) := by
  refine ⟨fun a => ⟨rfl, rfl, ?_, claimed_waits _⟩, ⟨by decide, rfl⟩, by decide, by decide, by decide, by decide, by decide,
    rfl⟩
  simp [State.ReadWaits, small, ready]

/-- A unit taking data, with the pointer in the window and past it; an import at its last data word, at both words of its
CRC, and judged; the states that a status word names and does not name. -/
theorem witness_DataWords :
    let st := fun (a : Assembly) (p : Option Pointer) => ({ small with
      bench := { small.bench with assembly := a, pointer := p } } : State)
    (∀ a, (st a (some {})).MapLaw) ∧ (∀ a p, (st a p).bench.selected = (st a p).startup.unitNo ∧ (st a p).bench.stream = none
        ∧ (st a p).bench.assembly = a ∧ (st a p).bench.pointer = p)
      ∧ (∀ a, (st a none).bench.pointer = none) ∧ (st (.takingData none) none).MapLaw
      ∧ crcWords 0 = [0xFFFF, 0xFFFF] ∧ crcWords 0 ≠ [0xFFFF, 0]
      ∧ [CellState.empty, .loaded, .learning, .converged, .suspect][(4 : Word).toNat % 8]? = some .suspect
      ∧ 5 ≤ (5 : Word).toNat % 8 := by
  refine ⟨fun a => small_mapLaw rfl rfl (by show mapWf small.map = true; decide) rfl rfl nofun rfl,
    fun a p => ⟨rfl, rfl, rfl, rfl⟩, fun _ => rfl, ?_, by decide, by decide, by decide, by decide⟩
  obtain ⟨a, b, c, _, e, f, g⟩ := small_mapLaw (s := small) rfl rfl (by decide) rfl rfl nofun rfl
  exact ⟨a, b, c, nofun, e, f, g⟩

/-- A pointer at the first and at the last cell of a window; an open link and windowed map access; the pointer in the window
and past it. -/
theorem witness_MapAccessCommands :
    ({} : Pointer).within small.bench.window ∧ ({ head := 3, wedge := 31, pos := 2 } : Pointer).within small.bench.window
      ∧ small.LinkOpen ∧ small.settings.geometryLegal ∧ small.MapOpen ∧ small.bench.pointer = some {}
      ∧ ({ small with bench := { small.bench with pointer := none } } : State).MapOpen := by
  refine ⟨?_, ?_, small_openLink, ?_, small_openMap, rfl, ⟨⟨rfl, rfl, rfl, by decide⟩, rfl, rfl⟩⟩
  · simp [Pointer.within, small]
  · simp [Pointer.within, small]
  · simp [Settings.geometryLegal, small]

/-- Geometries on both sides of their bounds; a unit with nothing that makes Set Geometry Busy, and one with a run; and the
states of a Fill, with a run that meets the window. -/
theorem witness_GeometryAndFill :
    small.LinkOpen ∧ small.startup.unitState = .ready ∧ learning.LinkOpen ∧ learning.startup.unitState = .ready
      ∧ 8 < (9 : Word).toNat ∧ (31 : Word).toNat < 32
      ∧ ¬ ((8 : Word).toNat < 1 ∨ 8 < (8 : Word).toNat ∨ (512 : Word).toNat < 32 ∨ 512 < (512 : Word).toNat)
      ∧ learning.runs.active.isSome = true
      ∧ small.MapLaw ∧ small.runs.active = none ∧ small.runs.queue = [] ∧ small.sweep = none
      ∧ 2 ≤ (2 : Word).toNat ∧ (1 : Word).toNat ≤ 1
      ∧ (∃ c h, learning.runs.active = some c ∧ c.heads.get h = true
          ∧ learning.bench.window.firstHead.val ≤ h.val ∧ h.val ≤ learning.bench.window.lastHead.val)
      ∧ ¬ ∃ c h, small.runs.active = some c ∧ c.heads.get h = true
          ∧ small.bench.window.firstHead.val ≤ h.val ∧ h.val ≤ small.bench.window.lastHead.val := by
  refine ⟨small_openLink, rfl, learning_openLink, rfl, by decide, by decide, by decide, rfl,
    small_mapLaw rfl rfl (by decide) rfl rfl nofun rfl, rfl, rfl, rfl, by decide, by decide, ⟨_, 2, rfl, by decide⟩, ?_⟩
  rintro ⟨c, h, hc, _⟩
  cases hc

/-- An open link; a set of heads that names a configured head, and one that names none. -/
theorem witness_SettingsCommands :
    small.LinkOpen ∧ ((0x0008 : Word).getLsbD (3 : Head).val = true ∧ (3 : Head).val < small.settings.headsInstalled)
      ∧ ∀ h : Head, ¬ ((0x00F0 : Word).getLsbD h.val = true ∧ h.val < small.settings.headsInstalled) :=
  ⟨small_openLink, by decide, by decide⟩

/-- A table with one entry, and the cell's state with it. The requests that wait are of that cell, of another and of a cell that
is not configured. -/
def excluding (order : List Nat) : State :=
  { withCell small 1 12 { working := 5, state := .excluded } with
    exclusions := [(1, 12)], autoRequests := [(1, 12), (3, 31), (4, 0)], autoOrder := order }

theorem excluding_mapLaw (order : List Nat) : (excluding order).MapLaw := by
  obtain ⟨a, _, c, d, e, _, g⟩ := small_mapLaw (s := small) rfl rfl (by decide) rfl rfl nofun rfl
  refine ⟨a, (by decide : mapWf (excluding []).map = true), c, d, e,
    ⟨(by decide : (excluding []).exclusions.length ≤ Config.exclusionDepth), ?_, ?_⟩, g⟩
  · simp [excluding]
  · simp only [excluding, List.mem_singleton, forall_eq]
    exact (by decide : (excluding []).configured 1 12 = true)

/-- Every cell of heads 0..3 at wedge 0..7: a full table, with one request that waits. -/
def full : State :=
  { small with exclusions := (List.range 32).map fun n => (Fin.ofNat 8 (n / 8), n % 8), autoRequests := [(3, 31)] }

theorem full_mapLaw : full.MapLaw := by
  obtain ⟨a, b, c, d, e, _, g⟩ := small_mapLaw (s := small) rfl rfl (by decide) rfl rfl nofun rfl
  exact ⟨a, b, c, d, e, ⟨by decide, by decide, by decide⟩, g⟩

/-- A cell that is not in the table and may enter it, taken before an older request; one that is in it, the oldest; one that is
not configured; and one that finds the table full. -/
theorem witness_ExclusionsAndPermissions :
    (∀ order, (excluding order).MapLaw ∧ (excluding order).LinkOpen) ∧ full.MapLaw ∧ full.LinkOpen
      ∧ ((excluding [1]).autoRequests[1 % (excluding [1]).autoRequests.length]? = some (3, 31)
        ∧ (3, 31) ∉ (excluding [1]).exclusions ∧ (excluding [1]).configured 3 31 = true ∧ (excluding [1]).exclusions.length < 32)
      ∧ ((excluding []).autoRequests[0 % (excluding []).autoRequests.length]? = some (1, 12)
        ∧ (1, 12) ∈ (excluding []).exclusions)
      ∧ ((excluding [5]).autoRequests[5 % (excluding [5]).autoRequests.length]? = some (4, 0)
        ∧ (excluding [5]).configured 4 0 = false)
      ∧ (full.autoRequests[0 % full.autoRequests.length]? = some (3, 31)
        ∧ (3, 31) ∉ full.exclusions ∧ full.configured 3 31 = true ∧ 32 ≤ full.exclusions.length)
      ∧ full.settings.headsInstalled ≤ (4 : Word).toNat ∧ (3 : Word).toNat < full.settings.headsInstalled
      ∧ full.settings.wedges ≤ (32 : Word).toNat ∧ (31 : Word).toNat < full.settings.wedges
      ∧ 3 ≤ (3 : Word).toNat ∧ (2 : Word).toNat ≤ 2 :=
  ⟨fun o => ⟨excluding_mapLaw o, ⟨rfl, rfl, rfl, (by decide : (excluding []).startup.unitState ≠ .failed)⟩⟩, full_mapLaw, ⟨rfl, rfl, rfl, by decide⟩,
    ⟨rfl, by decide, by decide, by decide⟩, ⟨rfl, by decide⟩, ⟨rfl, by decide⟩, ⟨rfl, by decide, by decide, by decide⟩,
    by decide, by decide, by decide, by decide, by decide, by decide⟩
end Sys2Proof.Tests
end

section
/-! The conventions of chapter 00: rounding half away from zero (R1), and the comparison of revolution counts (R2). -/

namespace Sys2Proof.Machine

/-! ### Rounding (R1, R30) -/

/-- The magnitude rounding works on (R30): the quotient of two natural numbers, rounded up where the remainder is half the
divisor or more. -/
def roundedMagnitude (n d : Nat) : Nat := if d ≤ 2 * (n % d) then n / d + 1 else n / d

theorem rounded_of_neg {x : Int} (hx : x < 0) (d : Nat) : rounded x d = -(roundedMagnitude x.natAbs d : Int) := by
  simp only [rounded, roundedMagnitude, if_pos hx]

theorem rounded_of_nonneg {x : Int} (hx : 0 ≤ x) (d : Nat) : rounded x d = roundedMagnitude x.natAbs d := by
  simp only [rounded, roundedMagnitude, if_neg hx.not_gt]

/-- Rounding down undershoots by the remainder. -/
theorem roundedMagnitude_mul_of_lt_half {n d : Nat} (h : 2 * (n % d) < d) : roundedMagnitude n d * d + n % d = n := by
  rw [roundedMagnitude, if_neg h.not_ge]
  exact Nat.div_add_mod' n d

/-- Rounding up overshoots by what the remainder lacks of the divisor. -/
theorem roundedMagnitude_mul_of_half_le {n d : Nat} (h : d ≤ 2 * (n % d)) :
    roundedMagnitude n d * d + n % d = n + d := by
  rw [roundedMagnitude, if_pos h, Nat.add_one_mul, Nat.add_right_comm, Nat.div_add_mod']

/-- The sign plays no part: a rounded quotient times the divisor is as far from the dividend as their magnitudes are apart. -/
theorem rounded_mul_sub_natAbs (x : Int) (d : Nat) :
    (rounded x d * d - x).natAbs = ((roundedMagnitude x.natAbs d * d : Nat) - (x.natAbs : Int)).natAbs := by
  rcases lt_or_ge x 0 with hx | hx
  · rw [rounded_of_neg hx, Int.neg_mul, ← Int.natCast_mul]
    omega
  · rw [rounded_of_nonneg hx, ← Int.natCast_mul]
    omega

theorem rounded_mul_natAbs (x : Int) (d : Nat) : (rounded x d * d).natAbs = roundedMagnitude x.natAbs d * d := by
  rcases lt_or_ge x 0 with hx | hx
  · rw [rounded_of_neg hx, Int.neg_mul, Int.natAbs_neg, ← Int.natCast_mul, Int.natAbs_natCast]
  · rw [rounded_of_nonneg hx, ← Int.natCast_mul, Int.natAbs_natCast]

/-- R1 for a magnitude: within half a divisor, and above the dividend at exactly half. -/
theorem roundedMagnitude_nearest (n : Nat) {d : Nat} (hd : 0 < d) :
    2 * ((roundedMagnitude n d * d : Nat) - (n : Int)).natAbs ≤ d
      ∧ (2 * ((roundedMagnitude n d * d : Nat) - (n : Int)).natAbs = d → n < roundedMagnitude n d * d) := by
  have hr : n % d < d := Nat.mod_lt n hd
  rcases lt_or_ge (2 * (n % d)) d with h | h
  · have hdown := roundedMagnitude_mul_of_lt_half h
    omega
  · have hup := roundedMagnitude_mul_of_half_le h
    omega

/-- Settles O6: the signs drop out, and the magnitude is rounded down below half a divisor and up from half a divisor on. -/
theorem roundedHalfAwayFromZero : Obligations.RoundedHalfAwayFromZero := by
  refine ⟨fun x d hd => ?_, by decide, by decide, by decide, by decide⟩
  rw [rounded_mul_sub_natAbs, rounded_mul_natAbs]
  exact roundedMagnitude_nearest x.natAbs hd

/-! ### Revolution counts (R2) -/

/-- R2: the count is modular, so it wraps from 65535 to 0. -/
theorem rev_add_one_toNat (r : Rev) : (r + 1).toNat = if r.toNat = 65535 then 0 else r.toNat + 1 := by
  have hr : r.toNat < 65536 := r.isLt
  rw [BitVec.toNat_add, show (1 : Rev).toNat = 1 from rfl]
  split <;> omega

/-- The difference of two counts is the remainder R2 compares. -/
theorem rev_sub_toNat (r s : Rev) : ((r - s).toNat : Int) = ((r.toNat : Int) - s.toNat) % 65536 := by
  have hs : s.toNat < 65536 := s.isLt
  rw [BitVec.toNat_sub]
  omega

theorem earlier_iff (s r : Rev) :
    earlier s r = true ↔
      1 ≤ ((r.toNat : Int) - s.toNat) % 65536 ∧ ((r.toNat : Int) - s.toNat) % 65536 ≤ 32767 := by
  rw [earlier, decide_eq_true_iff, ← rev_sub_toNat]
  omega

/-- A stamp is at distance 0 of its own revolution, outside 1..32767. -/
@[simp] theorem earlier_self (r : Rev) : earlier r r = false := by
  simp [earlier]

/-- Settles O5, from the remainder that a difference of two counts is. -/
theorem revolutionComparison : Obligations.RevolutionComparison :=
  fun s r => ⟨rev_add_one_toNat r, earlier_iff s r, earlier_self r⟩

end Sys2Proof.Machine
end

section
/-! What a step is made of. A step of the link is a sequence of its own operations before which the arbiter grants the claims
that wait at most once (R19; log 5), and every other step is a sequence of the operations of its own row. The laws and the
rules over every step are proved operation by operation. -/

namespace Sys2Proof.Machine

open Relation (ReflTransGen)

/-- One operation of a step of the link, the claims ahead of it apart. A well-formed step other than SELF_TEST performs no
Self-Test. -/
inductive LinkOp (i : Instr) : State → State → Prop
  | assembly (s : State) (a : Assembly) : LinkOp i s { s with bench := { s.bench with assembly := a } }
  | refuse (s : State) (o : Outcome) : LinkOp i s (s.refuse o)
  | strap (s : State) (x : Bool) : LinkOp i s (s.setStrap x)
  | streamRead (s : State) : LinkOp i s s.completeStreamRead
  | streamStart (s : State) (left : Option Nat) (crc : Option (BitVec 32)) : LinkOp i s (s.accept.readStreamItem left crc)
  | placeItem (s : State) (p : Pointer) (hp : s.bench.pointer = some p) : LinkOp i s (s.placeItem p)
  | writeWord (s : State) (p : Pointer) (w : Word) (hp : s.bench.pointer = some p) : LinkOp i s (s.writeWord p w)
  | importMatch (s : State) (h : Head) : LinkOp i s (s.importMatch h)
  | importFail (s : State) (h : Head) : LinkOp i s (s.importFail h)
  | cmdNull (s : State) : LinkOp i s s.cmdNull
  | cmdSelectUnit (s : State) (a : Word) : LinkOp i s (s.cmdSelectUnit a)
  | cmdSelfTest (s : State) (hi : WellFormed i = true → ∃ x, i = .selfTest x) : LinkOp i s s.cmdSelfTest
  | cmdUnitReset (s : State) : LinkOp i s s.cmdUnitReset
  | cmdHaltStream (s : State) : LinkOp i s s.cmdHaltStream
  | cmdSetGeometry (s : State) (a b : Word) : LinkOp i s (s.cmdSetGeometry a b)
  | cmdFill (s : State) (a b : Word) : LinkOp i s (s.cmdFill a b)
  | cmdSetWindow (s : State) (a b c d : Word) : LinkOp i s (s.cmdSetWindow a b c d)
  | cmdSetAccessOrder (s : State) (a b c : Word) : LinkOp i s (s.cmdSetAccessOrder a b c)
  | cmdWriteMap (s : State) : LinkOp i s s.cmdWriteMap
  | cmdWriteMapContinue (s : State) : LinkOp i s s.cmdWriteMapContinue
  | cmdPublishNow (s : State) (a : Word) : LinkOp i s (s.cmdPublishNow a)
  | cmdEnqueueRun (s : State) (a b c d e f g : Word) : LinkOp i s (s.cmdEnqueueRun a b c d e f g)
  | cmdCancelQueued (s : State) (a : Word) : LinkOp i s (s.cmdCancelQueued a)
  | cmdHaltRun (s : State) : LinkOp i s s.cmdHaltRun
  | cmdTakeResult (s : State) : LinkOp i s s.cmdTakeResult
  | cmdFeedForwardOn (s : State) : LinkOp i s s.cmdFeedForwardOn
  | cmdFeedForwardOff (s : State) : LinkOp i s s.cmdFeedForwardOff
  | cmdExclude (s : State) (a b : Word) : LinkOp i s (s.cmdExclude a b)
  | cmdInclude (s : State) (a b : Word) : LinkOp i s (s.cmdInclude a b)
  | cmdClearExclusions (s : State) (a : Word) : LinkOp i s (s.cmdClearExclusions a)
  | cmdReadExclusions (s : State) : LinkOp i s s.cmdReadExclusions
  | cmdSetPermissions (s : State) (a b c : Word) : LinkOp i s (s.cmdSetPermissions a b c)
  | cmdReadPermissions (s : State) : LinkOp i s s.cmdReadPermissions
  | cmdReadMonitor (s : State) (a : Word) : LinkOp i s (s.cmdReadMonitor a)
  | cmdReadCaptureCounts (s : State) : LinkOp i s s.cmdReadCaptureCounts
  | cmdReadIdentity (s : State) : LinkOp i s s.cmdReadIdentity
  | cmdReadSettings (s : State) : LinkOp i s s.cmdReadSettings
  | cmdSetSetting (s : State) (a b : Word) : LinkOp i s (s.cmdSetSetting a b)
  | cmdSetHeadGain (s : State) (a b : Word) : LinkOp i s (s.cmdSetHeadGain a b)
  | cmdSetHeadOptions (s : State) (a b c d : Word) : LinkOp i s (s.cmdSetHeadOptions a b c d)
  | cmdClearEvents (s : State) (a : Word) : LinkOp i s (s.cmdClearEvents a)
  | cmdSetEventEnables (s : State) (a : Word) : LinkOp i s (s.cmdSetEventEnables a)

/-- What a judged command does: a refusal, or its own terms (R181). -/
theorem judged_cases (s : State) (own : State → State) : (∃ o, s.judged own = s.refuse o) ∨ s.judged own = own s := by
  unfold State.judged
  split
  · exact .inl ⟨_, rfl⟩
  · split
    · exact .inl ⟨_, rfl⟩
    · exact .inr rfl

/-- What a command of windowed map access does: a refusal, or its own terms (R167, R170). -/
theorem judgedAccess_cases (s : State) (own : State → State) :
    (∃ o, s.judgedAccess own = s.refuse o) ∨ s.judgedAccess own = own s := by
  rcases judged_cases s (fun s => if s.busy then s.refuse .busy else own s) with ⟨o, h⟩ | h
  · exact .inl ⟨o, h⟩
  · rw [State.judgedAccess, h]
    split
    · exact .inl ⟨_, rfl⟩
    · exact .inr rfl

/-- A Read Map Item is refused, or places its item after the claims ahead of it (R170; log 5). -/
theorem cmdReadMapItem_cases (s : State) :
    (∃ o, s.cmdReadMapItem = s.refuse o)
      ∨ ∃ p, s.bench.pointer = some p ∧ s.cmdReadMapItem = s.claimsAhead.placeItem p := by
  rcases judgedAccess_cases s _ with ⟨o, h⟩ | h
  · exact .inl ⟨o, h⟩
  · cases hp : s.bench.pointer with
    | none => exact .inl ⟨.notFound, by rw [State.cmdReadMapItem, h, hp]⟩
    | some p => exact .inr ⟨p, rfl, by rw [State.cmdReadMapItem, h, hp]⟩

/-- A Stream Map is refused, or reads its first item after the claims ahead of it (R172; log 5). -/
theorem cmdStreamMap_cases (s : State) (n : Word) :
    (∃ o, s.cmdStreamMap n = s.refuse o)
      ∨ ∃ left crc, s.cmdStreamMap n = s.claimsAhead.accept.readStreamItem left crc := by
  rcases judgedAccess_cases s _ with ⟨o, h⟩ | h
  · exact .inl ⟨o, h⟩
  · rw [State.cmdStreamMap, h]
    split
    · exact .inl ⟨_, rfl⟩
    · exact .inr ⟨_, _, rfl⟩

/-- An assembled command does nothing, or is one operation of the link, before which the claims ahead of it may be granted. -/
theorem perform_cases (i : Instr) (s : State) (code : CmdCode) (ps : List Word)
    (hi : code = .selfTest → ps = [] → WellFormed i = true → ∃ x, i = .selfTest x) :
    s.perform code ps = s ∨ LinkOp i s (s.perform code ps) ∨ LinkOp i s.claimsAhead (s.perform code ps) := by
  cases code with
  | selfTest => exact match ps, hi with
    | [], hi => .inr (.inl (.cmdSelfTest s (hi rfl rfl)))
    | _ :: _, _ => .inl rfl
  | readMapItem => exact match ps with
    | [] => (cmdReadMapItem_cases s).elim
        (fun ⟨o, h⟩ => .inr (.inl (h.symm ▸ .refuse s o : LinkOp i s s.cmdReadMapItem)))
        fun ⟨p, hp, h⟩ => .inr (.inr (h.symm ▸ .placeItem _ p (by simpa using hp) : LinkOp i s.claimsAhead s.cmdReadMapItem))
    | _ :: _ => .inl rfl
  | streamMap => exact match ps with
    | [n] => (cmdStreamMap_cases s n).elim
        (fun ⟨o, h⟩ => .inr (.inl (h.symm ▸ .refuse s o : LinkOp i s (s.cmdStreamMap n))))
        fun ⟨left, crc, h⟩ => .inr (.inr (h.symm ▸ .streamStart _ left crc : LinkOp i s.claimsAhead (s.cmdStreamMap n)))
    | [] | _ :: _ :: _ => .inl rfl
  | null => exact match ps with
    | [] => .inr (.inl (.cmdNull s))
    | _ :: _ => .inl rfl
  | unitReset => exact match ps with
    | [] => .inr (.inl (.cmdUnitReset s))
    | _ :: _ => .inl rfl
  | haltStream => exact match ps with
    | [] => .inr (.inl (.cmdHaltStream s))
    | _ :: _ => .inl rfl
  | writeMap => exact match ps with
    | [] => .inr (.inl (.cmdWriteMap s))
    | _ :: _ => .inl rfl
  | writeMapContinue => exact match ps with
    | [] => .inr (.inl (.cmdWriteMapContinue s))
    | _ :: _ => .inl rfl
  | haltRun => exact match ps with
    | [] => .inr (.inl (.cmdHaltRun s))
    | _ :: _ => .inl rfl
  | takeResult => exact match ps with
    | [] => .inr (.inl (.cmdTakeResult s))
    | _ :: _ => .inl rfl
  | feedForwardOn => exact match ps with
    | [] => .inr (.inl (.cmdFeedForwardOn s))
    | _ :: _ => .inl rfl
  | feedForwardOff => exact match ps with
    | [] => .inr (.inl (.cmdFeedForwardOff s))
    | _ :: _ => .inl rfl
  | readExclusions => exact match ps with
    | [] => .inr (.inl (.cmdReadExclusions s))
    | _ :: _ => .inl rfl
  | readPermissions => exact match ps with
    | [] => .inr (.inl (.cmdReadPermissions s))
    | _ :: _ => .inl rfl
  | readCaptureCounts => exact match ps with
    | [] => .inr (.inl (.cmdReadCaptureCounts s))
    | _ :: _ => .inl rfl
  | readIdentity => exact match ps with
    | [] => .inr (.inl (.cmdReadIdentity s))
    | _ :: _ => .inl rfl
  | readSettings => exact match ps with
    | [] => .inr (.inl (.cmdReadSettings s))
    | _ :: _ => .inl rfl
  | selectUnit => exact match ps with
    | [a] => .inr (.inl (.cmdSelectUnit s a))
    | [] | _ :: _ :: _ => .inl rfl
  | setGeometry => exact match ps with
    | [a, b] => .inr (.inl (.cmdSetGeometry s a b))
    | [] | [_] | _ :: _ :: _ :: _ => .inl rfl
  | fill => exact match ps with
    | [a, b] => .inr (.inl (.cmdFill s a b))
    | [] | [_] | _ :: _ :: _ :: _ => .inl rfl
  | setWindow => exact match ps with
    | [a, b, c, d] => .inr (.inl (.cmdSetWindow s a b c d))
    | [] | [_] | [_, _] | [_, _, _] | _ :: _ :: _ :: _ :: _ :: _ => .inl rfl
  | setAccessOrder => exact match ps with
    | [a, b, c] => .inr (.inl (.cmdSetAccessOrder s a b c))
    | [] | [_] | [_, _] | _ :: _ :: _ :: _ :: _ => .inl rfl
  | publishNow => exact match ps with
    | [a] => .inr (.inl (.cmdPublishNow s a))
    | [] | _ :: _ :: _ => .inl rfl
  | enqueueRun => exact match ps with
    | [a, b, c, d, e, f, g] => .inr (.inl (.cmdEnqueueRun s a b c d e f g))
    | [] | [_] | [_, _] | [_, _, _] | [_, _, _, _] | [_, _, _, _, _] | [_, _, _, _, _, _]
    | _ :: _ :: _ :: _ :: _ :: _ :: _ :: _ :: _ => .inl rfl
  | cancelQueued => exact match ps with
    | [a] => .inr (.inl (.cmdCancelQueued s a))
    | [] | _ :: _ :: _ => .inl rfl
  | excludeWedge => exact match ps with
    | [a, b] => .inr (.inl (.cmdExclude s a b))
    | [] | [_] | _ :: _ :: _ :: _ => .inl rfl
  | includeWedge => exact match ps with
    | [a, b] => .inr (.inl (.cmdInclude s a b))
    | [] | [_] | _ :: _ :: _ :: _ => .inl rfl
  | clearExclusions => exact match ps with
    | [a] => .inr (.inl (.cmdClearExclusions s a))
    | [] | _ :: _ :: _ => .inl rfl
  | setPermissions => exact match ps with
    | [a, b, c] => .inr (.inl (.cmdSetPermissions s a b c))
    | [] | [_] | [_, _] | _ :: _ :: _ :: _ :: _ => .inl rfl
  | readMonitor => exact match ps with
    | [a] => .inr (.inl (.cmdReadMonitor s a))
    | [] | _ :: _ :: _ => .inl rfl
  | setSetting => exact match ps with
    | [a, b] => .inr (.inl (.cmdSetSetting s a b))
    | [] | [_] | _ :: _ :: _ :: _ => .inl rfl
  | setHeadGain => exact match ps with
    | [a, b] => .inr (.inl (.cmdSetHeadGain s a b))
    | [] | [_] | _ :: _ :: _ :: _ => .inl rfl
  | setHeadOptions => exact match ps with
    | [a, b, c, d] => .inr (.inl (.cmdSetHeadOptions s a b c d))
    | [] | [_] | [_, _] | [_, _, _] | _ :: _ :: _ :: _ :: _ :: _ => .inl rfl
  | clearEvents => exact match ps with
    | [a] => .inr (.inl (.cmdClearEvents s a))
    | [] | _ :: _ :: _ => .inl rfl
  | setEventEnables => exact match ps with
    | [a] => .inr (.inl (.cmdSetEventEnables s a))
    | [] | _ :: _ :: _ => .inl rfl

/-! ### The claims ahead of a step of the link -/

/-- Some operations of the link leave of a state one in which neither the Feed-Forward Server nor the Learning Engine sees a
change. -/
structure Arrived (i : Instr) (s u : State) : Prop where
  ops : ReflTransGen (LinkOp i) s u
  map : u.map = s.map
  held : u.held = s.held
  ff : u.ff = s.ff
  reply : u.formReply.ff = s.formReply.ff

/-- A state in a step of the link before whose access no claim has been granted, or in which none waits any more. -/
inductive BeforeAccess (i : Instr) (s e : State) : Prop
  | unclaimed (h : Arrived i s e)
  | claimed (u : State) (hu : Arrived i s u) (ops : ReflTransGen (LinkOp i) u.claimsAhead e)
      (hf : ∀ q, e.ff.server ≠ .forming q) (hh : e.held = none)

/-- What a step of the link does: its own operations, with the claims that wait granted before its access or not at all
(R19; log 5). -/
inductive LinkRun (i : Instr) (s t : State) : Prop
  | unclaimed (ops : ReflTransGen (LinkOp i) s t)
  | claimed (u : State) (hu : Arrived i s u) (ops : ReflTransGen (LinkOp i) u.claimsAhead t)

theorem Arrived.refl (i : Instr) (s : State) : Arrived i s s := ⟨.refl, rfl, rfl, rfl, rfl⟩

/-- After the claims ahead no request is forming. -/
theorem claimsAhead_not_forming (s : State) (q : FFRequest) : s.claimsAhead.ff.server ≠ .forming q := by
  intro hq
  have hw := (claimsAhead_not_waiting s).1
  simp [State.ffWaiting, hq] at hw

/-- A reply depends on the settings, the map, the runs, the unit state and, of the head profiles, on the lead, the polarity, the
offset and its split alone (R128 to R137). -/
theorem formReply_ff_congr {s t : State} (hff : t.ff = s.ff) (hset : t.settings = s.settings) (hmap : t.map = s.map)
    (hruns : t.runs = s.runs) (hunit : t.startup.unitState = s.startup.unitState)
    (hp : ∀ h, (t.profile h).lead = (s.profile h).lead ∧ (t.profile h).inverted = (s.profile h).inverted
      ∧ (t.profile h).offsetSplit = (s.profile h).offsetSplit ∧ (t.profile h).offset = (s.profile h).offset) :
    t.formReply.ff = s.formReply.ff := by
  unfold State.formReply
  rw [hff]
  split
  · exact hff
  · exact hff
  · rename_i q _
    obtain ⟨hl, hi, hs, ho⟩ := hp q.head
    have hj : t.judgeRequest q = s.judgeRequest q := by simp only [State.judgeRequest, hset, hunit]
    have hcell : t.cell = s.cell := by funext h w; simp only [State.cell, hmap]
    have hb : t.baseValue = s.baseValue := by
      funext h w
      simp only [State.baseValue, State.interpolate, State.firstGood, hcell, hset]
    have hn : t.injection = s.injection := by funext h; simp only [State.injection, hruns]
    have hc : t.composeReply q = s.composeReply q := by
      simp only [State.composeReply, servedValue, hb, hn, hset, hl, hi, hs, ho]
    rw [hj, hc]
    cases s.judgeRequest q with
    | none => simp only [State.setServer, hff]
    | some r => simp only [State.setServer, hff]

/-- One more operation that neither the Feed-Forward Server nor the Learning Engine sees. -/
theorem Arrived.tail {i : Instr} {s u v : State} (h : Arrived i s u) (ho : LinkOp i u v) (hmap : v.map = u.map)
    (hheld : v.held = u.held) (hff : v.ff = u.ff) (hset : v.settings = u.settings) (hruns : v.runs = u.runs)
    (hunit : v.startup.unitState = u.startup.unitState)
    (hp : ∀ h, (v.profile h).lead = (u.profile h).lead ∧ (v.profile h).inverted = (u.profile h).inverted
      ∧ (v.profile h).offsetSplit = (u.profile h).offsetSplit ∧ (v.profile h).offset = (u.profile h).offset) :
    Arrived i s v :=
  ⟨h.ops.tail ho, hmap.trans h.map, hheld.trans h.held, hff.trans h.ff,
    (formReply_ff_congr hff hset hmap hruns hunit hp).trans h.reply⟩

theorem Arrived.assembly {i : Instr} {s u : State} (h : Arrived i s u) (a : Assembly) :
    Arrived i s { u with bench := { u.bench with assembly := a } } :=
  h.tail (.assembly u a) rfl rfl rfl rfl rfl rfl fun _ => ⟨rfl, rfl, rfl, rfl⟩

theorem Arrived.refuse {i : Instr} {s u : State} (h : Arrived i s u) (o : Outcome) : Arrived i s (u.refuse o) :=
  h.tail (.refuse u o) rfl rfl rfl rfl rfl rfl fun _ => ⟨rfl, rfl, rfl, rfl⟩

theorem Arrived.strap {i : Instr} {s u : State} (h : Arrived i s u) (x : Bool) : Arrived i s (u.setStrap x) :=
  h.tail (.strap u x) rfl rfl rfl rfl rfl rfl fun _ => ⟨rfl, rfl, rfl, rfl⟩

theorem Arrived.importFail {i : Instr} {s u : State} (h : Arrived i s u) (k : Head) : Arrived i s (u.importFail k) := by
  refine h.tail (.importFail u k) (by simp) (by simp) (by simp) (by simp) (by simp) (by simp) fun j => ?_
  simp only [State.profile, State.importFail, State.raise_profiles, State.modifyProfile_profiles, PerHead.get_modify]
  split
  · rename_i hj; subst hj; exact ⟨rfl, rfl, rfl, rfl⟩
  · exact ⟨rfl, rfl, rfl, rfl⟩

theorem BeforeAccess.assembly {i : Instr} {s e : State} (h : BeforeAccess i s e) (a : Assembly) :
    BeforeAccess i s { e with bench := { e.bench with assembly := a } } := by
  cases h with
  | unclaimed h => exact .unclaimed (h.assembly a)
  | claimed u hu ops hf hh => exact .claimed u hu (ops.tail (.assembly e a)) hf hh

theorem BeforeAccess.refuse {i : Instr} {s e : State} (h : BeforeAccess i s e) (o : Outcome) :
    BeforeAccess i s (e.refuse o) := by
  cases h with
  | unclaimed h => exact .unclaimed (h.refuse o)
  | claimed u hu ops hf hh => exact .claimed u hu (ops.tail (.refuse e o)) hf hh

theorem BeforeAccess.importFail {i : Instr} {s e : State} (h : BeforeAccess i s e) (k : Head) :
    BeforeAccess i s (e.importFail k) := by
  cases h with
  | unclaimed h => exact .unclaimed (h.importFail k)
  | claimed u hu ops hf hh =>
    exact .claimed u hu (ops.tail (.importFail e k)) (by simpa using hf) (by simpa using hh)

theorem BeforeAccess.takeClaimedRead {i : Instr} {s e : State} (h : BeforeAccess i s e) :
    BeforeAccess i s e.takeClaimedRead := by
  unfold State.takeClaimedRead
  split
  · cases h with
    | unclaimed h =>
      refine .claimed e h (.single (.streamRead _)) (fun q => ?_) ?_
      · rw [State.completeStreamRead_ff]; exact claimsAhead_not_forming e q
      · rw [State.completeStreamRead_held]; exact (claimsAhead_not_waiting e).2
    | claimed u hu ops hf hh =>
      rw [claimsAhead_of_none hf hh]
      exact .claimed u hu (ops.tail (.streamRead e)) (by simpa using hf) (by simpa using hh)
  · exact h

theorem BeforeAccess.endAssembly {i : Instr} {s e : State} (h : BeforeAccess i s e) : BeforeAccess i s e.endAssembly := by
  have hidle := h.assembly .idle
  unfold State.endAssembly
  split
  · exact h
  · exact hidle.refuse _
  · unfold State.endData
    split
    · exact hidle
    · split
      · exact hidle
      · exact hidle.importFail _

theorem BeforeAccess.commandArrives {i : Instr} {s e : State} (h : BeforeAccess i s e) : BeforeAccess i s e.commandArrives :=
  h.takeClaimedRead.endAssembly

theorem BeforeAccess.run {i : Instr} {s e : State} (h : BeforeAccess i s e) : LinkRun i s e := by
  cases h with
  | unclaimed h => exact .unclaimed h.ops
  | claimed u hu ops hf hh => exact .claimed u hu ops

theorem LinkRun.tail {i : Instr} {s t t' : State} (h : LinkRun i s t) (ht : LinkOp i t t') : LinkRun i s t' := by
  cases h with
  | unclaimed ops => exact .unclaimed (ops.tail ht)
  | claimed u hu ops => exact .claimed u hu (ops.tail ht)

/-- The access of the link, made after the claims that wait. -/
theorem BeforeAccess.access {i : Instr} {s e t : State} (h : BeforeAccess i s e) (ht : LinkOp i e.claimsAhead t) :
    LinkRun i s t := by
  cases h with
  | unclaimed h => exact .claimed e h (.single ht)
  | claimed u hu ops hf hh =>
    rw [claimsAhead_of_none hf hh] at ht
    exact .claimed u hu (ops.tail ht)

theorem BeforeAccess.perform {i : Instr} {s e : State} (h : BeforeAccess i s e) (code : CmdCode) (ps : List Word)
    (hi : code = .selfTest → ps = [] → WellFormed i = true → ∃ x, i = .selfTest x) : LinkRun i s (e.perform code ps) := by
  rcases perform_cases i e code ps hi with ht | ht | ht
  · rw [ht]; exact h.run
  · exact h.run.tail ht
  · exact h.access ht

theorem BeforeAccess.writeAtPointer {i : Instr} {s e : State} (h : BeforeAccess i s e) (w : Word) :
    LinkRun i s (e.writeAtPointer w) := by
  unfold State.writeAtPointer
  split
  · exact h.run
  · rename_i p hp
    exact h.access (.writeWord _ p w (by simpa using hp))

theorem BeforeAccess.dataWord {i : Instr} {s e : State} (h : BeforeAccess i s e) (imp : Option Import) (w : Word) :
    LinkRun i s (e.dataWord imp w) := by
  unfold State.dataWord
  split
  · exact h.writeAtPointer w
  · rename_i m
    unfold State.importWord
    split
    · exact (h.writeAtPointer w).tail (.assembly _ _)
    · exact h.run.tail (.assembly _ _)
    · dsimp only
      split
      · exact (h.run.tail (.assembly _ _)).tail (.importMatch _ _)
      · exact (h.run.tail (.assembly _ _)).tail (.importFail _ _)
    · exact h.run

theorem BeforeAccess.commandSelected {i : Instr} {s e : State} (h : BeforeAccess i s e) (own : State → State)
    (ho : ∀ e, BeforeAccess i s e → LinkRun i s (own e)) : LinkRun i s (e.commandSelected own) := by
  unfold State.commandSelected
  split
  · exact ho _ h.commandArrives
  · split
    · exact h.commandArrives.run
    · exact h.run

theorem BeforeAccess.command {i : Instr} {s e : State} (h : BeforeAccess i s e) (code : CmdCode) (own : State → State)
    (ho : ∀ e, BeforeAccess i s e → LinkRun i s (own e)) : LinkRun i s (e.command code own) := by
  unfold State.command
  split
  · exact ho _ h.commandArrives
  · exact h.commandSelected own ho

/-- A command word, taken alone (R180). -/
theorem linkRun_commandWord (i : Instr) (s : State) (w : Word)
    (hi : CmdCode.ofWord w = some .selfTest → WellFormed i = true → ∃ x, i = .selfTest x) :
    LinkRun i s (s.commandWord w) := by
  have h0 : BeforeAccess i s s := .unclaimed (.refl i s)
  unfold State.commandWord
  split
  · refine h0.commandSelected _ fun e h => ?_
    rcases judged_cases e fun s => s.refuse .badParameter with ⟨o, he⟩ | he
    · rw [he]; exact h.run.tail (.refuse e o)
    · rw [he]; exact h.run.tail (.refuse e _)
  · rename_i code hc
    split
    · exact h0.command code _ fun e h => h.perform code [] fun hs _ => hi (hs ▸ hc)
    · exact h0.command code _ fun e h => h.run.tail (.assembly e _)

/-- A parameter word, taken alone (R180). -/
theorem linkRun_parameterWord (i : Instr) (s : State) (w : Word) : LinkRun i s (s.parameterWord w) := by
  have h0 : BeforeAccess i s s := .unclaimed (.refl i s)
  have h1 := h0.takeClaimedRead
  unfold State.parameterWord
  split
  · dsimp only
    split
    · exact h1.run
    · unfold State.assembleWord
      split
      · exact h1.run.tail (.assembly _ _)
      · refine (h1.assembly .idle).perform _ _ fun _ hps => absurd hps ?_
        simp
    · exact h1.dataWord _ _
  · exact h0.run

/-- Every step of the link grants the claims that wait before its access, or not at all (R19; log 5). -/
theorem exec_linkRun {i : Instr} {s t : State} (hi : i.onLink = true) (he : exec i s = .next t) : LinkRun i s t := by
  have h0 : BeforeAccess i s s := .unclaimed (.refl i s)
  cases hl : i.linkWords with
  | some cp =>
    obtain ⟨code, ps⟩ := cp
    by_cases hc : code = .selfTest
    · subst hc
      cases i <;> simp only [Instr.linkWords, reduceCtorEq, Option.some.injEq, Prod.mk.injEq, false_and] at hl
      case selfTest x =>
        cases he
        have hs : BeforeAccess (.selfTest x) s (s.setStrap x) := .unclaimed ((Arrived.refl _ s).strap x)
        exact hs.commandArrives.run.tail (.cmdSelfTest _ fun _ => ⟨x, rfl⟩)
    · rw [exec_command hl hc] at he
      cases he
      exact h0.command code _ fun e h => h.perform code ps fun hs => absurd hs hc
  | none =>
    cases i <;> simp only [Instr.onLink, Instr.linkWords, Option.isSome_none, Bool.false_eq_true, reduceCtorEq] at hi hl
    case benchParameterWord select w =>
      cases he
      unfold State.writeStrobe
      split
      · rename_i hs
        refine linkRun_commandWord _ s w fun hw hwf => ?_
        have hs : select = 0 := BitVec.eq_of_toNat_eq hs
        simp [WellFormed, benchWordWellFormed, hs, hw, CmdCode.paramCount] at hwf
      · exact linkRun_parameterWord _ s w
      · exact h0.run
    case mapDataWord w => cases he; exact linkRun_parameterWord _ s w
    case unknownCommand w =>
      cases he
      refine linkRun_commandWord _ s w fun hw hwf => ?_
      simp [WellFormed, unknownWordWellFormed, hw] at hwf

/-! ### Every step -/

/-- One operation of a step: of the link, or of the row of the table that the step is. -/
inductive Operation : Instr → State → State → Prop
  | link {i : Instr} {s t : State} (h : LinkOp i s t) : Operation i s t
  | reply (i : Instr) (s : State) (hi : i = .ffOperation ∨ i.onLink = true) : Operation i s s.formReply
  | learning (i : Instr) (s : State) (hi : i = .learningOperation ∨ i.onLink = true) : Operation i s s.grantLearning
  | captureWord (s : State) (b : Bool) (w : Word) : Operation (.captureWord b w) s (s.captureWord b w)
  | schedule (s : State) (l : List DueHead) (n : List Nat) :
      Operation .indexEvent s { s with publishing := l, publishAtOnce := n }
  | publishHead (s : State) (d : DueHead) : Operation .indexEvent s (s.publishHead d)
  | advanceRev (s : State) : Operation .indexEvent s s.advanceRev
  | runIndex (s : State) (r : Rev) : Operation .indexEvent s (s.runIndex r)
  | revolution (s : State) : Operation .indexEvent s (s.raise .revolution)
  | timerExpiry (s : State) : Operation .indexTimerExpiry s s.timerExpiry
  | startRun (s : State) : Operation .runStart s s.startRun
  | takeRecord (s : State) : Operation .learningTakeRecord s s.takeRecord
  | autoExclusion (s : State) : Operation .autoExclusion s s.takeAutoExclusion
  | request (s : State) (w : Word) : Operation (.ffRequest w) s (s.takeRequest w)
  | replyStrobe (s : State) (b : Bool) : Operation (.ffReplyStrobe b) s (s.replyStrobe b)
  | sweepStep (s : State) : Operation .sweepStep s s.sweepStep
  | powerOn (s : State) (x : Bool) : Operation (.powerOnReset x) s (s.powerOn x)
  | memoryTest (s : State) (r : MemoryResult) : Operation (.memoryTestEnd r) s (s.endMemoryTest r)
  | assertPresent (s : State) : Operation .secondaryPresentAssert s s.assertPresent
  | seePresent (s : State) : Operation .presentSeen s s.seePresent
  | closePresence (s : State) : Operation .presenceWindowExpiry s s.closePresence
  | seePassed (s : State) : Operation .passedSeen s s.seePassed
  | pairTimeout (s : State) : Operation .pairWaitExpiry s s.pairTimeout
  | presentRelease (s : State) : Operation .presentRelease s (s.setPresLine false)
  | returnQueueRead (s : State) : Operation .returnQueueRead s s.readReturnQueue
  | statusRead (s : State) : Operation .statusReadAcknowledge s s.readStatus
  | streamItemRead (s : State) : Operation .streamMapItemRead s s.grantStreamRead

theorem operations_of_link {i : Instr} {s t : State} (h : ReflTransGen (LinkOp i) s t) : ReflTransGen (Operation i) s t :=
  ReflTransGen.mono (fun _ _ => Operation.link) _ _ h

theorem operations_publications (l : List DueHead) (s : State) :
    ReflTransGen (Operation .indexEvent) s (l.foldl State.publishHead s) := by
  induction l generalizing s with
  | nil => exact .refl
  | cons d l ih => exact .head (.publishHead s d) (ih _)

theorem operations_takeIndex (s : State) : ReflTransGen (Operation .indexEvent) s s.takeIndex :=
  ((((ReflTransGen.single (.schedule s [] s.publishAtOnce)).trans (operations_publications _ _)).tail (.advanceRev _)).tail
    (.schedule _ _ _)).trans (operations_publications _ _) |>.tail (.runIndex _ _) |>.tail (.revolution _)

/-- Every step is a sequence of the operations of its row. -/
theorem exec_operations {i : Instr} {s t : State} (he : exec i s = .next t) : ReflTransGen (Operation i) s t := by
  by_cases hi : i.onLink = true
  · cases exec_linkRun hi he with
    | unclaimed ops => exact operations_of_link ops
    | claimed u hu ops =>
      exact ((operations_of_link hu.ops).tail (.reply i u (.inr hi))).tail (.learning i _ (.inr hi))
        |>.trans (operations_of_link ops)
  · cases i
    case captureWord b w => cases he; exact .single (.captureWord s b w)
    case indexEvent => cases he; exact operations_takeIndex s
    case indexTimerExpiry => cases he; exact .single (.timerExpiry s)
    case runStart => cases he; exact .single (.startRun s)
    case learningTakeRecord => cases he; exact .single (.takeRecord s)
    case learningOperation => cases he; exact .single (.learning _ s (.inl rfl))
    case autoExclusion => cases he; exact .single (.autoExclusion s)
    case ffRequest w => cases he; exact .single (.request s w)
    case ffOperation => cases he; exact .single (.reply _ s (.inl rfl))
    case ffReplyStrobe b => cases he; exact .single (.replyStrobe s b)
    case sweepStep => cases he; exact .single (.sweepStep s)
    case powerOnReset x => cases he; exact .single (.powerOn s x)
    case memoryTestEnd r => cases he; exact .single (.memoryTest s r)
    case secondaryPresentAssert => cases he; exact .single (.assertPresent s)
    case presentSeen => cases he; exact .single (.seePresent s)
    case presenceWindowExpiry => cases he; exact .single (.closePresence s)
    case passedSeen => cases he; exact .single (.seePassed s)
    case pairWaitExpiry => cases he; exact .single (.pairTimeout s)
    case presentRelease => cases he; exact .single (.presentRelease s)
    case returnQueueRead => cases he; exact .single (.returnQueueRead s)
    case statusReadAcknowledge => cases he; exact .single (.statusRead s)
    case streamMapItemRead => cases he; exact .single (.streamItemRead s)
    all_goals exact absurd rfl hi

/-- A property that a sequence of operations keeps, one after another. -/
theorem operations_keep {P : State → Prop} {i : Instr} (hop : ∀ {s t}, Operation i s t → P s → P t) {s t : State}
    (h : ReflTransGen (Operation i) s t) (hs : P s) : P t := by
  induction h with
  | refl => exact hs
  | tail _ ho ih => exact hop ho ih

/-- A property that every operation keeps, and that does not look at the queue, is kept by the block's step. -/
theorem step_keeps {P : State → Prop} (hq : ∀ s q, P s → P { s with pending := q })
    (hop : ∀ {i s t}, Operation i s t → P s → P t) {s t : State} (hs : P s) (ht : step s = .next t) : P t := by
  unfold step at ht
  split at ht
  · cases ht
    unfold State.publishNext
    split
    · exact hs
    · exact hop (.publishHead _ _) (hop (.schedule s _ s.publishAtOnce) hs)
  · exact operations_keep hop (exec_operations ht) (hq s _ hs)

end Sys2Proof.Machine
end

section
/-! What the operations of a step do, case by case: the commands that write the map, the ends of a run, an index of the Run
Controller, a sample, a sweep step. -/

namespace Sys2Proof.Machine

/-- An answer to a command: of the unit, the outcome and the event flags alone may differ. -/
def Answered (s t : State) : Prop := ∃ o f, t = { s with bench := { s.bench with lastOutcome := o, flags := f } }

theorem answered_refuse (s : State) (o : Outcome) : Answered s (s.refuse o) := ⟨_, _, rfl⟩

theorem answered_of_eq_refuse {s t : State} {o : Outcome} (h : t = s.refuse o) : Answered s t := h ▸ answered_refuse s o

theorem answered_accept (s : State) : Answered s s.accept := ⟨_, s.bench.flags, rfl⟩

/-- What stays of a run as it goes on: its descriptor, its heads and its depth. -/
def RunCtx.shape (c : RunCtx) : Descriptor × HeadSet × Nat := (c.desc, c.heads, c.depth)

theorem RunCtx.shape_eq_iff (c c' : RunCtx) :
    c'.shape = c.shape ↔ c'.desc = c.desc ∧ c'.heads = c.heads ∧ c'.depth = c.depth := by
  simp [RunCtx.shape]

@[simp] theorem RunCtx.shape_count (c : RunCtx) (d : Discard) : (c.count d).shape = c.shape := rfl

@[simp] theorem RunCtx.verdicts_count (c : RunCtx) (d : Discard) : (c.count d).verdicts = c.verdicts := rfl

/-! ### Sweeps and Set Geometry -/

/-- Set Geometry is refused, or applied with a legal geometry and no run active (R18). -/
theorem cmdSetGeometry_cases (s : State) (a b : Word) :
    Answered s (s.cmdSetGeometry a b)
      ∨ (1 ≤ a.toNat ∧ a.toNat ≤ 8 ∧ 32 ≤ b.toNat ∧ b.toNat ≤ 512) ∧ s.runs.active = none
        ∧ s.cmdSetGeometry a b = (s.applyGeometry a.toNat b.toNat).accept := by
  rcases judged_cases s _ with ⟨o, h⟩ | h
  · exact .inl (answered_of_eq_refuse h)
  rw [State.cmdSetGeometry, h]
  clear h
  split
  · exact .inl (answered_refuse s _)
  · split
    · exact .inl (answered_refuse s _)
    · rename_i hg
      split
      · exact .inl (answered_refuse s _)
      · rename_i hr
        split
        · exact .inl (answered_refuse s _)
        · refine .inr ⟨by omega, ?_, rfl⟩
          rw [not_or, Option.not_isSome_iff_eq_none] at hr
          exact hr.1

/-- Fill is refused, or starts its sweep (R27). -/
theorem cmdFill_cases (s : State) (v st : Word) :
    Answered s (s.cmdFill v st) ∨ s.cmdFill v st = State.accept { s with sweep := some (s.fillSweep v st) } := by
  rcases judged_cases s _ with ⟨o, h⟩ | h
  · exact .inl (answered_of_eq_refuse h)
  rw [State.cmdFill, h]
  clear h
  split
  · exact .inl (answered_refuse s _)
  · split
    · exact .inl (answered_refuse s _)
    · split
      · exact .inl (answered_refuse s _)
      · split
        · exact .inl (answered_refuse s _)
        · exact .inr rfl

/-- The end of a test changes nothing, or finishes the test (R201). -/
theorem endTestIfDone_cases (s : State) : s.endTestIfDone = s ∨ ∃ own, s.endTestIfDone = s.finishTest own := by
  unfold State.endTestIfDone
  split
  · split
    · exact .inr ⟨_, rfl⟩
    · exact .inl rfl
  · exact .inl rfl

/-- No sweep is in flight after the end of one (R24). -/
@[simp] theorem State.endSweep_sweep (s : State) (k : Sweep) : (s.endSweep k).sweep = none := by
  unfold State.endSweep
  dsimp only
  split
  · rfl
  · rfl
  · split
    · simp
    · rfl
    · rfl
    · rfl
  · split
    · simp
    · rfl
    · rfl
    · rfl

/-- A sweep step waits, or writes the next cell and moves the sweep on or ends it (R24). -/
theorem sweepStep_cases (s : State) :
    s.sweepStep = s ∨ ∃ k, s.sweep = some k
      ∧ ((∃ k', k.advance = some k'
            ∧ s.sweepStep = { s.modifyCell k.nextHead k.nextWedge (s.sweepCell k.kind k.nextHead) with sweep := some k' })
          ∨ k.advance = none
            ∧ s.sweepStep = (s.modifyCell k.nextHead k.nextWedge (s.sweepCell k.kind k.nextHead)).endSweep k) := by
  unfold State.sweepStep
  split
  · exact .inl rfl
  · rename_i k hk
    split
    · exact .inl rfl
    · refine .inr ⟨k, hk, ?_⟩
      cases ha : k.advance with
      | some k' => exact .inl ⟨k', rfl, rfl⟩
      | none => exact .inr ⟨rfl, rfl⟩

/-! ### The Exclusion Table -/

/-- Exclude answers, or enters a configured cell that is not in the table and finds room (R144). -/
theorem cmdExclude_cases (s : State) (a b : Word) :
    Answered s (s.cmdExclude a b)
      ∨ ∃ h w, s.configured h w = true ∧ (h, w) ∉ s.exclusions ∧ s.exclusions.length < Config.exclusionDepth
        ∧ s.cmdExclude a b = (s.enterExclusion h w).accept := by
  rcases judged_cases s _ with ⟨o, h⟩ | h
  · exact .inl (answered_of_eq_refuse h)
  rw [State.cmdExclude, h]
  clear h
  split
  · exact .inl (answered_refuse s _)
  · rename_i h _
    unfold State.excludeCell
    split
    · exact .inl (answered_refuse s _)
    · rename_i hc
      split
      · exact .inl (answered_accept s)
      · rename_i hx
        split
        · exact .inl ⟨_, _, rfl⟩
        · rename_i hl
          exact .inr ⟨h, _, by simpa using hc, by simpa using hx, by omega, rfl⟩

/-- Include answers, or removes an entry and restores its cell (R146). -/
theorem cmdInclude_cases (s : State) (a b : Word) :
    Answered s (s.cmdInclude a b)
      ∨ ∃ h w, (h, w) ∈ s.exclusions
        ∧ s.cmdInclude a b = State.accept { s with
            exclusions := s.exclusions.filter fun e => decide (e ≠ (h, w))
            map := modifyCellOf s.map h w Cell.included } := by
  rcases judged_cases s _ with ⟨o, h⟩ | h
  · exact .inl (answered_of_eq_refuse h)
  rw [State.cmdInclude, h]
  clear h
  split
  · exact .inl (answered_refuse s _)
  · rename_i h _
    split
    · rename_i hx
      exact .inr ⟨h, _, by simpa using hx, rfl⟩
    · exact .inl (answered_refuse s _)

/-- Clear Exclusions is refused, or removes the entries of a set of heads and restores their cells (R147). -/
theorem cmdClearExclusions_cases (s : State) (a : Word) :
    Answered s (s.cmdClearExclusions a)
      ∨ ∃ hs : HeadSet, s.cmdClearExclusions a = State.accept { s with
            exclusions := s.exclusions.filter fun e => !hs.get e.1
            map := updateRows s.map hs.get fun h w c => if s.exclusions.contains (h, w) then c.included else c } := by
  rcases judged_cases s _ with ⟨o, h⟩ | h
  · exact .inl (answered_of_eq_refuse h)
  rw [State.cmdClearExclusions, h]
  clear h
  exact .inr ⟨_, rfl⟩

/-! ### The ends of a run -/

/-- Ending the active run does nothing with none active, and concludes it otherwise (R100 to R102, R60). -/
theorem endRun_cases (s : State) (o : RunOutcome) (c : RunCause) :
    (s.runs.active = none ∧ s.endRun o c = s)
      ∨ ∃ ctx, s.runs.active = some ctx ∧ s.endRun o c = s.conclude ctx o c (PerHead.all .none) := by
  unfold State.endRun
  cases s.runs.active with
  | none => exact .inl ⟨rfl, rfl⟩
  | some ctx => exact .inr ⟨ctx, rfl, rfl⟩

/-- Halt Run answers, or concludes the active run (R100). -/
theorem cmdHaltRun_cases (s : State) :
    Answered s s.cmdHaltRun
      ∨ ∃ ctx, s.runs.active = some ctx
        ∧ s.cmdHaltRun = (s.conclude ctx .aborted .haltRun (PerHead.all .none)).accept := by
  rcases judged_cases s _ with ⟨o, h⟩ | h
  · exact .inl (answered_of_eq_refuse h)
  rw [State.cmdHaltRun, h]
  clear h
  split
  · rename_i ha
    rcases endRun_cases s .aborted .haltRun with ⟨hn, _⟩ | ⟨ctx, hc, he⟩
    · rw [hn] at ha; cases ha
    · exact .inr ⟨ctx, hc, by rw [he]⟩
  · exact .inl (answered_refuse s _)

/-- The settings with feed-forward Off (R140). -/
def State.forwardOff (s : State) : State := { s with settings := { s.settings with feedForward := false } }

/-- Feed-Forward Off is refused, or turns feed-forward Off and concludes the run that is active (R140). -/
theorem cmdFeedForwardOff_cases (s : State) :
    Answered s s.cmdFeedForwardOff ∨ Answered s.forwardOff s.cmdFeedForwardOff
      ∨ ∃ ctx, s.runs.active = some ctx
        ∧ s.cmdFeedForwardOff = (s.forwardOff.conclude ctx .aborted .feedForwardOff (PerHead.all .none)).accept := by
  rcases judged_cases s _ with ⟨o, h⟩ | h
  · exact .inl (answered_of_eq_refuse h)
  rw [State.cmdFeedForwardOff, h]
  clear h
  rcases endRun_cases s.forwardOff .aborted .feedForwardOff with ⟨_, he⟩ | ⟨ctx, hc, he⟩
  · refine .inr (.inl ?_)
    show Answered s.forwardOff (State.accept (s.forwardOff.endRun .aborted .feedForwardOff))
    rw [he]; exact answered_accept _
  · refine .inr (.inr ⟨ctx, hc, ?_⟩)
    show State.accept (s.forwardOff.endRun .aborted .feedForwardOff) = _
    rw [he]

/-- The index timer's expiry does nothing, or concludes the active run (R60). -/
theorem timerExpiry_cases (s : State) :
    s.timerExpiry = s ∨ ∃ ctx, s.runs.active = some ctx
      ∧ s.timerExpiry = State.raise (s.conclude ctx .faulted .spindleLost (PerHead.all .none)) .spindleLost := by
  unfold State.timerExpiry
  split
  · rename_i ha
    rcases endRun_cases s .faulted .spindleLost with ⟨hn, _⟩ | ⟨ctx, hc, he⟩
    · rw [hn] at ha; exact absurd ha.2 (by simp)
    · exact .inr ⟨ctx, hc, by rw [he]⟩
  · exact .inl rfl

/-- A run start does nothing, or takes the oldest descriptor with no run active: with no head left it concludes at once, and
otherwise the run begins (R87, R88, R90). -/
theorem startRun_cases (s : State) :
    s.startRun = s ∨ ∃ d rest, s.runs.active = none ∧ s.runs.queue = d :: rest
      ∧ let s1 : State := { s with runs := { s.runs with queue := rest } }
        ((s1.runHeads d).toList = []
            ∧ s.startRun = s1.conclude (s1.startContext d) .faulted .noHeads (PerHead.all .none))
          ∨ s.startRun = s1.beginRun d := by
  unfold State.startRun
  split
  · rename_i hs
    split
    · exact .inl rfl
    · rename_i d rest hq
      refine .inr ⟨d, rest, ?_, hq, ?_⟩
      · simp only [State.canStart, Bool.and_eq_true, Option.isNone_iff_eq_none] at hs
        exact hs.1.1.1.1.1
      · dsimp only
        split
        · rename_i hh; exact .inl ⟨hh, rfl⟩
        · exact .inr rfl
  · exact .inl rfl

theorem RunCtx.shape_stepSettle (c : RunCtx) (p : Phase) (r : Rev) :
    (c.stepSettle p r).shape = c.shape ∧ (c.stepSettle p r).verdicts = c.verdicts := by
  unfold RunCtx.stepSettle
  split <;> exact ⟨rfl, rfl⟩

theorem RunCtx.shape_settleAtIndex (c : RunCtx) (p q : Phase) (r : Rev) :
    (c.settleAtIndex p q r).shape = c.shape ∧ (c.settleAtIndex p q r).verdicts = c.verdicts := by
  unfold RunCtx.settleAtIndex
  split <;> exact ⟨rfl, rfl⟩

theorem RunCtx.shape_plusIndex (c : RunCtx) (r : Rev) :
    (c.plusIndex r).shape = c.shape ∧ (c.plusIndex r).verdicts = c.verdicts := by
  unfold RunCtx.plusIndex
  dsimp only
  split
  · exact ⟨rfl, rfl⟩
  · exact RunCtx.shape_settleAtIndex _ _ _ _

/-- What the Run Controller does at an index with a run active: the run goes on, a LEARN run retries, or the run concludes
(R92, R111). -/
theorem runIndex_cases (s : State) (r : Rev) :
    (s.runs.active = none ∧ s.runIndex r = s)
      ∨ ∃ ctx c, s.runs.active = some ctx ∧ c.shape = ctx.shape ∧ c.verdicts = ctx.verdicts
        ∧ (s.runIndex r = s.setRun c
          ∨ s.runIndex r = State.setRun
              { s with map := updateRows s.map ctx.heads.get fun h _ => Cell.retried (s.perms.learning.get h).cs } c
          ∨ (∃ o g, s.runIndex r = s.conclude c o .none g)
          ∨ s.runIndex r = s.concludeGain c) := by
  unfold State.runIndex
  split
  · rename_i ha; exact .inl ⟨ha, rfl⟩
  · rename_i ctx ha
    refine .inr ⟨ctx, ?_⟩
    split
    · exact ⟨_, ha, (ctx.shape_stepSettle _ r).1, (ctx.shape_stepSettle _ r).2, .inl rfl⟩
    · split
      · unfold State.verifyIndex
        dsimp only
        split
        · exact ⟨ctx.countRev, ha, rfl, rfl, .inl rfl⟩
        · exact ⟨ctx.countRev, ha, rfl, rfl, .inr (.inr (.inl ⟨_, _, rfl⟩))⟩
      · unfold State.learnIndex
        dsimp only
        split
        · exact ⟨ctx.countRev, ha, rfl, rfl, .inr (.inr (.inl ⟨_, _, rfl⟩))⟩
        · split
          · exact ⟨ctx.countRev, ha, rfl, rfl, .inl rfl⟩
          · split
            · obtain ⟨h1, h2⟩ := RunCtx.shape_settleAtIndex
                { ctx.countRev with retries := ctx.countRev.retries + 1 } .settle .collect r
              exact ⟨_, ha, h1, h2, .inr (.inl rfl)⟩
            · exact ⟨ctx.countRev, ha, rfl, rfl, .inr (.inr (.inl ⟨_, _, rfl⟩))⟩
    · exact ⟨_, ha, (ctx.shape_stepSettle _ r).1, (ctx.shape_stepSettle _ r).2, .inl rfl⟩
    · exact ⟨_, ha, (ctx.shape_plusIndex r).1, (ctx.shape_plusIndex r).2, .inl rfl⟩
    · exact ⟨_, ha, (ctx.shape_stepSettle _ r).1, (ctx.shape_stepSettle _ r).2, .inl rfl⟩
    · unfold State.minusIndex
      dsimp only
      split
      · exact ⟨ctx.countRev, ha, rfl, rfl, .inl rfl⟩
      · exact ⟨ctx.countRev, ha, rfl, rfl, .inr (.inr (.inr rfl))⟩

/-! ### Samples -/

/-- What a sample of a LEARN or VERIFY run writes in its cell (R67, R69, R70). -/
inductive SampleWrite (s : State) (ctx : RunCtx) (r : HeldRecord) : (Cell → Cell) → Prop
  | outlier (hj : judgeSample ctx s.settings.outlierLimit (s.cell r.head r.wedge) r = some .outlier) :
      SampleWrite s ctx r (Cell.countOutlier s.settings.suspectCount)
  | accumulate (hj : judgeSample ctx s.settings.outlierLimit (s.cell r.head r.wedge) r = none)
      (hd : (s.cell r.head r.wedge).count + 1 < ctx.depth) : SampleWrite s ctx r (Cell.accumulate r.e r.stamp)
  | update (hj : judgeSample ctx s.settings.outlierLimit (s.cell r.head r.wedge) r = none) (write cs : Bool) :
      SampleWrite s ctx r fun c => (c.accumulate r.e r.stamp).update s.settings ctx.depth write cs

/-- A granted Learning Engine operation writes in no cell, or in the configured cell of the record held, one of a head of the
active run; the run goes on, and of its verdict marks it writes the one of that cell at most (R42, R62). -/
inductive LearningEffect (s t : State) : Prop
  | none (map : t.map = s.map) (shape : t.runs.active.map RunCtx.shape = s.runs.active.map RunCtx.shape)
      (verdicts : t.runs.active.map RunCtx.verdicts = s.runs.active.map RunCtx.verdicts)
  | sample (r : HeldRecord) (ctx c : RunCtx) (f : Cell → Cell) (held : s.held = some r) (active : s.runs.active = some ctx)
      (kind : ctx.desc.kind ≠ .gain) (head : ctx.heads.get r.head = true) (conf : s.configured r.head r.wedge = true)
      (write : SampleWrite s ctx r f) (map : t.map = modifyCellOf s.map r.head r.wedge f)
      (after : t.runs.active = some c) (shape : c.shape = ctx.shape)
      (verdicts : c.verdicts = ctx.verdicts
        ∨ ∃ v, c.verdicts = ctx.verdicts.set r.head (Sparse.set .unmeasured (ctx.verdicts.get r.head) r.wedge v))

theorem learningEffect_countDiscard (s : State) (r : Option HeldRecord) (d : Discard) :
    LearningEffect s (State.countDiscard { s with held := r } d) := by
  refine .none rfl ?_ ?_
  · rw [State.countDiscard_runs]
    cases s.runs.active <;> rfl
  · rw [State.countDiscard_runs]
    cases s.runs.active <;> rfl

/-- A judged sample of a LEARN or VERIFY run (R63, R67 to R72). -/
theorem learningEffect_learnSample {s : State} {ctx : RunCtx} {r : HeldRecord} (held : s.held = some r)
    (active : s.runs.active = some ctx) (kind : ctx.desc.kind ≠ .gain) (head : ctx.heads.get r.head = true) :
    LearningEffect s (State.learnSample { s with held := none } ctx r) := by
  unfold State.learnSample
  split
  · rename_i hj
    unfold State.admitSample
    split
    · rename_i hc
      dsimp only
      split
      · rename_i hd
        exact .sample r ctx ctx _ held active kind head hc (.accumulate hj hd) rfl active rfl (.inl rfl)
      · exact .sample r ctx _ _ held active kind head hc (SampleWrite.update (s := s) hj _ _) rfl rfl rfl (.inr ⟨_, rfl⟩)
    · exact .none rfl rfl rfl
  · rename_i hj
    unfold State.discardOutlier
    split
    · rename_i hc
      rw [Bool.and_eq_true] at hc
      exact .sample r ctx (ctx.count .outlier) _ held active kind head hc.2 (.outlier hj) rfl
        (by rw [State.countDiscard_runs]; simp only [active, Option.map_some]) rfl (.inl rfl)
    · exact learningEffect_countDiscard s none .outlier
  · rename_i d _ _
    exact learningEffect_countDiscard s none d

theorem grantLearning_effect (s : State) : LearningEffect s s.grantLearning := by
  unfold State.grantLearning
  split
  · exact .none rfl rfl rfl
  · split
    · exact .none rfl rfl rfl
    · rename_i r hr
      unfold State.learnOperation
      split
      · exact .none rfl rfl rfl
      · rename_i ctx hctx
        simp only [State.admitting, Option.filter_eq_some_iff, Bool.and_eq_true] at hctx
        obtain ⟨⟨hc, hhead, -⟩, -⟩ := hctx
        split
        · unfold State.gainSample
          split
          · refine .none rfl ?_ ?_
            · simp only [State.admitGainSample, hc]; rfl
            · simp only [State.admitGainSample, hc]; rfl
          · rename_i d _
            exact learningEffect_countDiscard s none d
        · rename_i hk
          exact learningEffect_learnSample hr hc hk hhead

end Sys2Proof.Machine
end

section
/-! Every operation of a step keeps the law of the map. -/

namespace Sys2Proof.Machine

/-- A discard changes of the run what `f` does not read. -/
theorem active_countDiscard {α : Type} {f : RunCtx → α} (hf : ∀ c d, f (c.count d) = f c) (s : State) (d : Discard) :
    (s.countDiscard d).runs.active.map f = s.runs.active.map f := by
  rw [State.countDiscard_runs]
  cases h : s.runs.active with
  | none => rfl
  | some c => simp [hf]

/-- A word of the Capture Port changes of the run its discard totals at most (R53). -/
theorem active_captureWord {α : Type} {f : RunCtx → α} (hf : ∀ c d, f (c.count d) = f c) (s : State) (b : Bool) (w : Word) :
    (s.captureWord b w).runs.active.map f = s.runs.active.map f := by
  unfold State.captureWord
  repeat' split
  · rfl
  · rfl
  · rfl
  · rfl
  · unfold State.completeFrame
    repeat' split
    · rfl
    · rfl
    · unfold State.checkFrame
      dsimp only
      repeat' split
      · rfl
      · rfl
      · exact active_countDiscard hf _ _
      · exact active_countDiscard hf _ _
      · unfold State.queueRecord
        split
        · rfl
        · exact active_countDiscard hf _ _

/-- Taking a record changes of the run its discard totals at most (R36). -/
theorem active_takeRecord {α : Type} {f : RunCtx → α} (hf : ∀ c d, f (c.count d) = f c) (s : State) :
    s.takeRecord.runs.active.map f = s.runs.active.map f := by
  unfold State.takeRecord
  repeat' split
  · rfl
  · rfl
  · unfold State.processRecord
    split
    · exact active_countDiscard hf _ _
    · exact active_countDiscard hf _ _
    · rfl

@[simp] theorem active_shape_captureWord (s : State) (b : Bool) (w : Word) :
    (s.captureWord b w).runs.active.map RunCtx.shape = s.runs.active.map RunCtx.shape :=
  active_captureWord RunCtx.shape_count s b w

@[simp] theorem active_verdicts_captureWord (s : State) (b : Bool) (w : Word) :
    (s.captureWord b w).runs.active.map RunCtx.verdicts = s.runs.active.map RunCtx.verdicts :=
  active_captureWord RunCtx.verdicts_count s b w

@[simp] theorem active_shape_takeRecord (s : State) :
    s.takeRecord.runs.active.map RunCtx.shape = s.runs.active.map RunCtx.shape :=
  active_takeRecord RunCtx.shape_count s

@[simp] theorem active_verdicts_takeRecord (s : State) :
    s.takeRecord.runs.active.map RunCtx.verdicts = s.runs.active.map RunCtx.verdicts :=
  active_takeRecord RunCtx.verdicts_count s

/-- What a written setting leaves alone (R191). -/
theorem cmdSetSetting_settings (s : State) (a b : Word) :
    (s.cmdSetSetting a b).settings.headsInstalled = s.settings.headsInstalled
      ∧ (s.cmdSetSetting a b).settings.wedges = s.settings.wedges := by
  rcases judged_cases s _ with ⟨o, h⟩ | h
  · rw [State.cmdSetSetting, h]; exact ⟨rfl, rfl⟩
  rw [State.cmdSetSetting, h]
  clear h
  split
  · exact ⟨rfl, rfl⟩
  · rename_i t ht
    unfold Settings.write at ht
    split at ht
    case h_10 => cases ht
    all_goals cases ht; exact ⟨rfl, rfl⟩

/-- Feed-Forward On leaves the geometry (R139). -/
theorem cmdFeedForwardOn_settings (s : State) :
    s.cmdFeedForwardOn.settings = s.settings
      ∨ s.cmdFeedForwardOn.settings = { s.settings with feedForward := true } := by
  rcases judged_cases s _ with ⟨o, h⟩ | h
  · rw [State.cmdFeedForwardOn, h]; exact .inl rfl
  · rw [State.cmdFeedForwardOn, h]; exact .inr rfl

/-! ### The law from its parts -/

theorem State.reset_mapLaw : State.reset.MapLaw where
  geometry := by simp [Settings.geometryLegal, State.reset]
  canonical := mapWf_all_nil
  window := by simp [Window.legal, State.reset]
  pointer := by rintro _ ⟨⟩; simp [Pointer.within, State.reset]
  sweep := nofun
  exclusions := by simp [State.exclusionsLegal, State.reset]
  verdicts := by intro c h; simp [State.reset] at h

/-- A state with the geometry, the window, the pointer, the sweep, the table and the verdict marks of one in order, and a
canonical map, is in order. -/
theorem State.MapLaw.frame {s t : State} (hm : s.MapLaw) (heads : t.settings.headsInstalled = s.settings.headsInstalled)
    (wedges : t.settings.wedges = s.settings.wedges) (map : mapWf t.map = true) (window : t.bench.window = s.bench.window)
    (pointer : t.bench.pointer = s.bench.pointer) (sweep : t.sweep = s.sweep) (exclusions : t.exclusions = s.exclusions)
    (verdicts : t.runs.active.map RunCtx.verdicts = s.runs.active.map RunCtx.verdicts) : t.MapLaw where
  geometry := by simpa only [Settings.geometryLegal, heads, wedges] using hm.geometry
  canonical := map
  window := by simpa only [Window.legal, heads, wedges, window] using hm.window
  pointer := fun p hp => window ▸ hm.pointer p (pointer ▸ hp)
  sweep := fun w hw => hm.sweep w (sweep ▸ hw)
  exclusions := by
    simpa only [State.exclusionsLegal, State.configured, heads, wedges, exclusions] using hm.exclusions
  verdicts := fun c hc h => by
    rw [hc, Option.map_some] at verdicts
    obtain ⟨c', hc', hv⟩ := Option.map_eq_some_iff.mp verdicts.symm
    rw [← hv]
    exact hm.verdicts c' hc' h

/-- A state with the geometry and the window of one in order, with its Exclusion Table and its run or none of them, and with a
canonical map, a pointer in the window and a sweep in its range, is in order. -/
theorem State.MapLaw.emptied {s t : State} (hm : s.MapLaw) (heads : t.settings.headsInstalled = s.settings.headsInstalled)
    (wedges : t.settings.wedges = s.settings.wedges) (map : mapWf t.map = true) (window : t.bench.window = s.bench.window)
    (pointer : ∀ p, t.bench.pointer = some p → p.within s.bench.window) (sweep : ∀ w, t.sweep = some w → w.legal)
    (exclusions : t.exclusions = s.exclusions ∨ t.exclusions = [])
    (verdicts : t.runs.active = s.runs.active ∨ t.runs.active = none) : t.MapLaw where
  geometry := by simpa only [Settings.geometryLegal, heads, wedges] using hm.geometry
  canonical := map
  window := by simpa only [Window.legal, heads, wedges, window] using hm.window
  pointer := fun p hp => window ▸ pointer p hp
  sweep := sweep
  exclusions := by
    rcases exclusions with h | h
    · simpa only [State.exclusionsLegal, State.configured, heads, wedges, h] using hm.exclusions
    · simp [State.exclusionsLegal, h]
  verdicts := fun c hc => by
    rcases verdicts with h | h
    · exact hm.verdicts c (h ▸ hc)
    · rw [h] at hc; cases hc

/-- An answer keeps the law of the map. -/
theorem State.MapLaw.answered {s t : State} (hm : s.MapLaw) (h : Answered s t) : t.MapLaw := by
  obtain ⟨o, f, rfl⟩ := h
  exact hm.frame rfl rfl hm.canonical rfl rfl rfl rfl rfl

/-- The pointer at its window's start or past the end. -/
theorem State.MapLaw.movePointer {s : State} (hm : s.MapLaw) (q : Option Pointer)
    (hq : ∀ p, q = some p → p.within s.bench.window) : ({ s with bench := { s.bench with pointer := q } } : State).MapLaw :=
  { hm with pointer := hq }

/-- The pointer moved on from an item of the window is in the window (R161). -/
theorem State.MapLaw.advance {s : State} (hm : s.MapLaw) {p q : Pointer} (hp : s.bench.pointer = some p)
    (hq : advancePointer s.bench.window s.bench.order p = some q) : q.within s.bench.window :=
  advancePointer_within hm.window.1 hm.window.2.2.1 (hm.pointer p hp) hq

/-- The start of the window lies in it (R161). -/
theorem State.MapLaw.start {s : State} (hm : s.MapLaw) {ord : Order} {q : Pointer}
    (hq : windowStart s.bench.window ord = some q) : q.within s.bench.window :=
  windowStart_within hm.window.1 hm.window.2.2.1 hq

/-- A concluded run leaves a map in order. -/
theorem State.MapLaw.conclude {s : State} (hm : s.MapLaw) (ctx : RunCtx) (o : RunOutcome) (c : RunCause)
    (g : PerHead GainResult) : (s.conclude ctx o c g).MapLaw :=
  { hm with
    canonical := by rw [State.conclude_map]; exact mapWf_updateRows hm.canonical _ _
    verdicts := fun c hc => by rw [State.conclude_runs] at hc; cases hc }

theorem State.MapLaw.endRun {s : State} (hm : s.MapLaw) (o : RunOutcome) (c : RunCause) : (s.endRun o c).MapLaw := by
  rcases endRun_cases s o c with ⟨-, h⟩ | ⟨ctx, -, h⟩
  · rw [h]; exact hm
  · rw [h]; exact hm.conclude ..

theorem State.MapLaw.readStreamItem {s : State} (hm : s.MapLaw) (left : Option Nat) (crc : Option (BitVec 32)) :
    (s.readStreamItem left crc).MapLaw := by
  unfold State.readStreamItem
  split
  · exact hm
  · rename_i p hp
    exact (hm.movePointer _ fun q hq => hm.advance hp hq).frame (by simp) (by simp) (by simpa using hm.canonical) (by simp)
      (by simp) (by simp) (by simp) (by simp)

theorem State.MapLaw.completeStreamRead {s : State} (hm : s.MapLaw) : s.completeStreamRead.MapLaw := by
  unfold State.completeStreamRead
  split
  · exact hm.readStreamItem _ _
  · exact hm

/-- The verdict mark of a cell of the grid, written, keeps a table of them canonical. -/
theorem verdicts_set_wf {t : PerHead (Sparse Verdict)}
    (ht : ∀ h : Head, Sparse.wf Verdict.unmeasured Config.gridWedges (t.get h) = true) (k : Head) {w : Nat}
    (hw : w < Config.gridWedges) (v : Verdict) (h : Head) :
    Sparse.wf Verdict.unmeasured Config.gridWedges ((t.set k (Sparse.set .unmeasured (t.get k) w v)).get h) = true := by
  rw [PerHead.get_set]
  split
  · exact Sparse.wf_set _ _ _ (ht k) w hw v
  · exact ht h

theorem State.MapLaw.grantLearning {s : State} (hm : s.MapLaw) : s.grantLearning.MapLaw := by
  cases grantLearning_effect s with
  | none map shape verdicts =>
    exact hm.frame (by simp) (by simp) (by rw [map]; exact hm.canonical) (by simp) (by simp) (by simp) (by simp) verdicts
  | sample r ctx c f held active kind head conf write map after shape verdicts =>
    have hw := configured_lt_grid hm.geometry conf
    have hv := hm.verdicts ctx active
    exact
      { geometry := by simpa using hm.geometry
        canonical := by rw [map]; exact mapWf_modifyCellOf hm.canonical _ hw _
        window := by simpa using hm.window
        pointer := by simpa using hm.pointer
        sweep := by simpa using hm.sweep
        exclusions := by simpa [State.exclusionsLegal, State.configured] using hm.exclusions
        verdicts := fun c' hc' => by
          rw [after] at hc'; cases hc'
          rcases verdicts with h | ⟨v, h⟩
          · rw [h]; exact hv
          · rw [h]; exact verdicts_set_wf hv _ hw v }

theorem State.MapLaw.writeWord {s : State} (hm : s.MapLaw) {p : Pointer} (w : Word) (hp : s.bench.pointer = some p) :
    (s.writeWord p w).MapLaw := by
  have hmap : mapWf (s.benchWrite p.head p.wedge (s.dataWrite p w)).map = true := by
    unfold State.benchWrite
    split
    · rename_i hc
      exact mapWf_modifyCellOf hm.canonical _ (configured_lt_grid hm.geometry hc) _
    · exact hm.canonical
  have h1 : (s.benchWrite p.head p.wedge (s.dataWrite p w)).MapLaw :=
    hm.frame (by simp) (by simp) hmap (by simp) (by simp) (by simp) (by simp) (by simp)
  refine h1.movePointer _ fun q hq => ?_
  rw [State.benchWrite_bench]
  unfold BenchLink.afterData at hq
  split at hq
  · exact hm.advance hp hq
  · rename_i hpos
    simp only [Bool.or_eq_true, decide_eq_true_eq, not_or] at hpos
    cases hq
    obtain ⟨h1, h2, h3, h4, -⟩ := hm.pointer p hp
    exact ⟨h1, h2, h3, h4, by simp only; omega⟩

theorem State.MapLaw.placeItem {s : State} (hm : s.MapLaw) {p : Pointer} (hp : s.bench.pointer = some p) :
    (s.placeItem p).MapLaw := by
  have h1 := hm.movePointer _ fun q hq => hm.advance hp hq
  unfold State.placeItem
  dsimp only
  split
  · exact h1.frame rfl rfl h1.canonical rfl rfl rfl rfl rfl
  · exact h1.frame rfl rfl h1.canonical rfl rfl rfl rfl rfl

theorem State.applyGeometry_map (s : State) (heads wedges : Nat) :
    (s.applyGeometry heads wedges).map = updateRows s.map (fun _ => true) fun _ _ => Cell.unexcluded := by
  rw [← State.emptyExclusions_map]; rfl

theorem State.prepareMap_map (s : State) :
    s.prepareMap.map = updateRows s.map (fun _ => true) fun _ _ => Cell.unexcluded := by
  rw [← State.emptyExclusions_map]; rfl

theorem State.applyUnitReset_map (s : State) :
    s.applyUnitReset.map = updateRows s.map (fun _ => true) fun _ _ => Cell.clearSums := by
  unfold State.applyUnitReset; rfl

theorem State.endMemoryTest_map {s : State} (hc : s.startup.unitState = .starting ∧ s.startup.phase = .memoryTest)
    (r : MemoryResult) : (s.endMemoryTest r).map = updateRows s.map (fun _ => true) fun _ _ => Cell.unexcluded := by
  rw [State.endMemoryTest, if_pos hc, ← State.prepareMap_map]

theorem State.beginRun_map (s : State) (d : Descriptor) :
    (s.beginRun d).map = updateRows s.map (s.runHeads d).get fun h => belowW s.settings.wedges
      (Cell.prepared s.index.rev (decide (d.kind = .learn) && d.resetCells) (s.perms.learning.get h)) := by
  unfold State.beginRun; rfl

theorem State.MapLaw.setGeometry {s : State} (hm : s.MapLaw) (a b : Word) : (s.cmdSetGeometry a b).MapLaw := by
  rcases cmdSetGeometry_cases s a b with h | ⟨⟨h1, h2, h3, h4⟩, hn, h⟩
  · exact hm.answered h
  · rw [h]
    have hl : (Fin.ofNat 8 (a.toNat - 1)).val = a.toNat - 1 := by
      rw [Fin.val_ofNat]; omega
    have hw : (s.applyGeometry a.toNat b.toNat).accept.bench.window.legal
        (s.applyGeometry a.toNat b.toNat).accept.settings := by
      refine ⟨Nat.zero_le _, ?_, Nat.zero_le _, ?_⟩
      · show (Fin.ofNat 8 (a.toNat - 1)).val < a.toNat
        omega
      · show b.toNat - 1 < b.toNat
        omega
    exact
      { geometry := ⟨h1, h2, h3, h4⟩
        canonical := mapWf_updateRows_all s.map fun _ _ => Cell.unexcluded
        window := hw
        pointer := fun p hp => windowStart_within hw.1 hw.2.2.1 hp
        sweep := fun w hw => Option.some.inj hw ▸ gridSweep_legal .geometry
        exclusions := ⟨Nat.zero_le _, .nil, nofun⟩
        verdicts := fun c hc => by
          rw [State.accept_runs, State.applyGeometry_runs, hn] at hc; cases hc }

theorem State.MapLaw.fill {s : State} (hm : s.MapLaw) (v st : Word) : (s.cmdFill v st).MapLaw := by
  rcases cmdFill_cases s v st with h | h
  · exact hm.answered h
  · rw [h]
    obtain ⟨h1, h2, h3, h4⟩ := hm.window
    refine { hm with sweep := ?_ }
    rintro _ ⟨⟩
    exact ⟨le_refl _, h1, le_refl _, h3, lt_of_lt_of_le h4 hm.geometry.2.2.2⟩

theorem State.MapLaw.setWindow {s : State} (hm : s.MapLaw) (a b c d : Word) : (s.cmdSetWindow a b c d).MapLaw := by
  rcases judged_cases s _ with ⟨o, h⟩ | h
  · exact hm.answered (answered_of_eq_refuse h)
  rw [State.cmdSetWindow, h]
  clear h
  dsimp only
  split
  · exact hm.answered (answered_refuse s _)
  · rename_i hw
    rw [not_or, not_lt, not_lt] at hw
    obtain ⟨g1, g2, g3, g4⟩ := hm.geometry
    have hl : (windowOf s.settings a b c d).legal s.settings := by
      refine ⟨hw.1, ?_, hw.2, ?_⟩
      · simp only [windowOf, Fin.val_ofNat]; omega
      · simp only [windowOf]; omega
    exact { hm with window := hl, pointer := fun p hp => windowStart_within hw.1 hw.2 hp }

theorem State.MapLaw.setAccessOrder {s : State} (hm : s.MapLaw) (a b c : Word) : (s.cmdSetAccessOrder a b c).MapLaw := by
  rcases judged_cases s _ with ⟨o, h⟩ | h
  · exact hm.answered (answered_of_eq_refuse h)
  rw [State.cmdSetAccessOrder, h]
  clear h
  split
  · exact hm.answered (answered_refuse s _)
  · exact { hm with pointer := fun p hp => hm.start hp }

theorem State.MapLaw.writeMap {s : State} (hm : s.MapLaw) : s.cmdWriteMap.MapLaw := by
  rcases judgedAccess_cases s _ with ⟨o, h⟩ | h
  · exact hm.answered (answered_of_eq_refuse h)
  rw [State.cmdWriteMap, h]
  exact { hm with pointer := fun p hp => hm.start hp }

theorem State.MapLaw.enterExclusion {s : State} (hm : s.MapLaw) {h : Head} {w : Nat} (hc : s.configured h w = true)
    (hl : s.exclusions.length < Config.exclusionDepth) : (s.enterExclusion h w).MapLaw := by
  obtain ⟨-, hord, hconf⟩ := hm.exclusions
  refine { hm with
    canonical := mapWf_modifyCellOf hm.canonical _ (configured_lt_grid hm.geometry hc) _
    exclusions := ⟨le_trans (length_insertExclusion_le _ _) hl, pairwise_insertExclusion _ _ hord, fun e he => ?_⟩ }
  rcases (mem_insertExclusion _ _ _).mp he with rfl | he
  · exact hc
  · exact hconf e he

/-- Entries that leave the Exclusion Table leave it in order. -/
theorem State.MapLaw.filterExclusions {s : State} (hm : s.MapLaw) (p : Head × Nat → Bool) (m : PerHead (Sparse Cell))
    (hmap : mapWf m = true) : ({ s with exclusions := s.exclusions.filter p, map := m } : State).MapLaw := by
  obtain ⟨hlen, hord, hconf⟩ := hm.exclusions
  exact { hm with
    canonical := hmap
    exclusions := ⟨le_trans (List.length_filter_le _ _) hlen, hord.filter _, fun e he => hconf e (List.mem_filter.mp he).1⟩ }

theorem State.MapLaw.exclude {s : State} (hm : s.MapLaw) (a b : Word) : (s.cmdExclude a b).MapLaw := by
  rcases cmdExclude_cases s a b with h | ⟨k, w, hc, -, hl, h⟩
  · exact hm.answered h
  · rw [h]; exact (hm.enterExclusion hc hl).answered (answered_accept _)

theorem State.MapLaw.include {s : State} (hm : s.MapLaw) (a b : Word) : (s.cmdInclude a b).MapLaw := by
  rcases cmdInclude_cases s a b with h | ⟨k, w, hx, h⟩
  · exact hm.answered h
  · rw [h]
    have hw := configured_lt_grid hm.geometry (hm.exclusions.2.2 _ hx)
    exact (hm.filterExclusions _ _ (mapWf_modifyCellOf hm.canonical _ hw _)).answered (answered_accept _)

theorem State.MapLaw.clearExclusions {s : State} (hm : s.MapLaw) (a : Word) : (s.cmdClearExclusions a).MapLaw := by
  rcases cmdClearExclusions_cases s a with h | ⟨hs, h⟩
  · exact hm.answered h
  · rw [h]; exact (hm.filterExclusions _ _ (mapWf_updateRows hm.canonical _ _)).answered (answered_accept _)

theorem State.MapLaw.haltRun {s : State} (hm : s.MapLaw) : s.cmdHaltRun.MapLaw := by
  rcases cmdHaltRun_cases s with h | ⟨ctx, -, h⟩
  · exact hm.answered h
  · rw [h]; exact (hm.conclude ..).answered (answered_accept _)

theorem State.MapLaw.forwardOff {s : State} (hm : s.MapLaw) : s.forwardOff.MapLaw :=
  hm.frame rfl rfl hm.canonical rfl rfl rfl rfl rfl

theorem State.MapLaw.feedForwardOff {s : State} (hm : s.MapLaw) : s.cmdFeedForwardOff.MapLaw := by
  rcases cmdFeedForwardOff_cases s with h | h | ⟨ctx, -, h⟩
  · exact hm.answered h
  · exact hm.forwardOff.answered h
  · rw [h]; exact (hm.forwardOff.conclude ..).answered (answered_accept _)

theorem State.MapLaw.beginTest {s : State} (hm : s.MapLaw) : s.beginTest.MapLaw := by
  unfold State.beginTest
  dsimp only
  split
  · exact { hm with canonical := mapWf_all_nil, exclusions := ⟨Nat.zero_le _, .nil, nofun⟩ }
  · exact { hm with }

theorem State.MapLaw.selfTest {s : State} (hm : s.MapLaw) : s.cmdSelfTest.MapLaw := by
  have h0 : ({ s with bench := { s.bench with stream := none } } : State).MapLaw := { hm with }
  have h1 := h0.endRun .aborted .selfTest
  unfold State.cmdSelfTest
  dsimp only
  generalize State.endRun _ _ _ = u at h1
  refine State.MapLaw.answered (State.MapLaw.beginTest ?_) (answered_accept _)
  exact { h1 with sweep := nofun, pointer := fun p hp => h1.start hp }

theorem State.MapLaw.unitReset {s : State} (hm : s.MapLaw) : s.cmdUnitReset.MapLaw := by
  unfold State.cmdUnitReset
  split
  · exact hm.answered (answered_refuse s _)
  · have hmap : mapWf s.applyUnitReset.map = true := by
      rw [State.applyUnitReset_map]; exact mapWf_updateRows_all _ _
    have h1 : s.applyUnitReset.MapLaw :=
      hm.emptied (by simp) (by simp) hmap (by simp) (fun p hp => hm.start hp) (by simpa using hm.sweep) (.inl (by simp))
        (.inr rfl)
    exact h1.answered (answered_accept _)

/-- Every operation of the link keeps the law of the map. -/
theorem LinkOp.mapLaw {i : Instr} {s t : State} (ho : LinkOp i s t) (hm : s.MapLaw) : t.MapLaw := by
  cases ho
  case streamRead => exact hm.completeStreamRead
  case streamStart left crc => exact (hm.answered (answered_accept s)).readStreamItem left crc
  case placeItem p hp => exact hm.placeItem hp
  case writeWord p w hp => exact hm.writeWord w hp
  case cmdSelfTest => exact hm.selfTest
  case cmdUnitReset => exact hm.unitReset
  case cmdSetGeometry a b => exact hm.setGeometry a b
  case cmdFill a b => exact hm.fill a b
  case cmdSetWindow a b c d => exact hm.setWindow a b c d
  case cmdSetAccessOrder a b c => exact hm.setAccessOrder a b c
  case cmdWriteMap => exact hm.writeMap
  case cmdHaltRun => exact hm.haltRun
  case cmdFeedForwardOff => exact hm.feedForwardOff
  case cmdExclude a b => exact hm.exclude a b
  case cmdInclude a b => exact hm.include a b
  case cmdClearExclusions a => exact hm.clearExclusions a
  case cmdSetSetting a b =>
    obtain ⟨h1, h2⟩ := cmdSetSetting_settings s a b
    exact hm.frame h1 h2 (by simpa using hm.canonical) (by simp) (by simp) (by simp) (by simp) (by simp)
  case cmdFeedForwardOn =>
    rcases cmdFeedForwardOn_settings s with h | h
    all_goals
      exact hm.frame (by rw [h]) (by rw [h]) (by simpa using hm.canonical) (by simp) (by simp) (by simp) (by simp) (by simp)
  all_goals
    exact hm.frame (by simp) (by simp) (by simpa using hm.canonical) (by simp) (by simp) (by simp) (by simp) (by simp)

theorem State.MapLaw.publishHead {s : State} (hm : s.MapLaw) (d : DueHead) : (s.publishHead d).MapLaw :=
  hm.frame (by simp) (by simp) (mapWf_publications [d] hm.canonical) (by simp) (by simp) (by simp) (by simp) (by simp)

theorem State.MapLaw.setRun {s : State} (hm : s.MapLaw) {ctx c : RunCtx} (ha : s.runs.active = some ctx)
    (hv : c.verdicts = ctx.verdicts) : (s.setRun c).MapLaw :=
  { hm with verdicts := by rintro _ ⟨⟩; rw [hv]; exact hm.verdicts ctx ha }

theorem State.MapLaw.runIndex {s : State} (hm : s.MapLaw) (r : Rev) : (s.runIndex r).MapLaw := by
  rcases runIndex_cases s r with ⟨-, h⟩ | ⟨ctx, c, ha, -, hv, h | h | ⟨o, g, h⟩ | h⟩
  · rw [h]; exact hm
  · rw [h]; exact hm.setRun ha hv
  · rw [h]
    have h1 : ({ s with map := updateRows s.map ctx.heads.get fun h _ => Cell.retried (s.perms.learning.get h).cs }
        : State).MapLaw :=
      { hm with canonical := mapWf_updateRows hm.canonical _ fun h _ => Cell.retried (s.perms.learning.get h).cs }
    exact h1.setRun ha hv
  · rw [h]; exact hm.conclude ..
  · rw [h]
    unfold State.concludeGain
    dsimp only
    refine State.MapLaw.conclude ?_ ..
    exact { hm with }

theorem State.MapLaw.startRun {s : State} (hm : s.MapLaw) : s.startRun.MapLaw := by
  rcases startRun_cases s with h | ⟨d, rest, hn, -, ⟨-, h⟩ | h⟩
  · rw [h]; exact hm
  · rw [h]
    refine State.MapLaw.conclude ?_ ..
    exact { hm with }
  · rw [h]
    refine { hm with canonical := ?_, verdicts := fun c hc h => ?_ }
    · rw [State.beginRun_map]
      exact mapWf_updateRows hm.canonical _ _
    · rw [← Option.some.inj hc]
      show Sparse.wf _ _ ((PerHead.all []).get h) = true
      simp

theorem State.MapLaw.autoExclusion {s : State} (hm : s.MapLaw) : s.takeAutoExclusion.MapLaw := by
  rcases s.takeAutoExclusion_cases with ⟨-, h⟩ | ⟨k, w, -, ⟨-, h⟩ | ⟨-, hc, h⟩⟩
  · rw [h]; exact hm
  · rw [h]; exact { hm with }
  · have ht : ({ s with autoRequests := s.autoRequests.eraseIdx s.autoNext, autoOrder := s.autoOrder.tail } : State).MapLaw :=
      { hm with }
    rw [h]
    split
    · exact { ht with }
    · rename_i hl
      exact ht.enterExclusion hc (not_le.mp hl)

theorem State.MapLaw.sweepStep {s : State} (hm : s.MapLaw) : s.sweepStep.MapLaw := by
  rcases sweepStep_cases s with h | ⟨k, hk, h⟩
  · rw [h]; exact hm
  have hw : k.nextWedge < Config.gridWedges := lt_of_le_of_lt (hm.sweep k hk).2.2.2.1 (hm.sweep k hk).2.2.2.2
  have h1 : (s.modifyCell k.nextHead k.nextWedge (s.sweepCell k.kind k.nextHead)).MapLaw :=
    hm.frame rfl rfl (mapWf_modifyCellOf hm.canonical _ hw _) rfl rfl rfl rfl rfl
  rcases h with ⟨k', ha, h⟩ | ⟨-, h⟩
  · rw [h]
    exact { h1 with sweep := fun w hw => Option.some.inj hw ▸ Sweep.legal_advance (hm.sweep k hk) ha }
  · rw [h]
    have h2 : ({ s.modifyCell k.nextHead k.nextWedge (s.sweepCell k.kind k.nextHead) with sweep := none } : State).MapLaw :=
      { h1 with sweep := nofun }
    exact h2.frame (by simp) (by simp) (by simpa using h1.canonical) (by simp) (by simp) (by simp) (by simp) (by simp)

theorem State.MapLaw.powerOn (s : State) (x : Bool) : (s.powerOn x).MapLaw :=
  { State.reset_mapLaw with }

theorem State.MapLaw.memoryTest {s : State} (hm : s.MapLaw) (r : MemoryResult) : (s.endMemoryTest r).MapLaw := by
  by_cases hc : s.startup.unitState = .starting ∧ s.startup.phase = .memoryTest
  · have hmap : mapWf (s.endMemoryTest r).map = true := by
      rw [State.endMemoryTest_map hc]; exact mapWf_updateRows_all _ _
    refine hm.emptied (by simp) (by simp) hmap (by simp) (by simpa using hm.pointer) (fun w hw => ?_) (.inr ?_) (.inl (by simp))
    · rw [State.endMemoryTest, if_pos hc] at hw
      exact Option.some.inj hw ▸ gridSweep_legal _
    · rw [State.endMemoryTest, if_pos hc]; rfl
  · rw [State.endMemoryTest, if_neg hc]
    exact hm

/-- Every operation of a step keeps the law of the map. -/
theorem Operation.mapLaw {i : Instr} {s t : State} (ho : Operation i s t) (hm : s.MapLaw) : t.MapLaw := by
  cases ho
  case link h => exact h.mapLaw hm
  case learning => exact hm.grantLearning
  case publishHead d => exact hm.publishHead d
  case runIndex r => exact hm.runIndex r
  case timerExpiry =>
    rcases timerExpiry_cases s with h | ⟨ctx, -, h⟩
    · rw [h]; exact hm
    · rw [h]; exact { hm.conclude ctx .faulted .spindleLost _ with }
  case startRun => exact hm.startRun
  case autoExclusion => exact hm.autoExclusion
  case sweepStep => exact hm.sweepStep
  case powerOn x => exact State.MapLaw.powerOn s x
  case memoryTest r => exact hm.memoryTest r
  case streamItemRead =>
    unfold State.grantStreamRead
    split
    · exact hm
    · exact hm.completeStreamRead
  all_goals
    exact hm.frame (by simp) (by simp) (by simpa using hm.canonical) (by simp) (by simp) (by simp) (by simp) (by simp)

end Sys2Proof.Machine
end

section
/-! What an operation of a step can write in a cell, said once for every cell: the laws of the map's cells and the rules over
every step follow from it case by case. -/

namespace Sys2Proof.Machine

/-- The active run, if any, goes on, over the same wedges. -/
def SameRun (s t : State) : Prop :=
  t.runs.active.map RunCtx.shape = s.runs.active.map RunCtx.shape ∧ t.settings.wedges = s.settings.wedges

theorem learningOn_of_none {s : State} (hn : s.runs.active = none) (h : Head) (w : Nat) : s.learningOn h w = false := by
  rw [State.learningOn, hn]

theorem learningOn_of_some {s : State} {c : RunCtx} (hc : s.runs.active = some c) (h : Head) (w : Nat) :
    s.learningOn h w = (decide (c.desc.kind ≠ .gain) && c.heads.get h && decide (w < s.settings.wedges)) := by
  rw [State.learningOn, hc]

/-- The active run of a state in which a run goes on. -/
theorem SameRun.active {s t : State} (hr : SameRun s t) {c' : RunCtx} (hc : t.runs.active = some c') :
    ∃ c, s.runs.active = some c ∧ c'.desc = c.desc ∧ c'.heads = c.heads ∧ c'.depth = c.depth := by
  have h := hr.1
  rw [hc, Option.map_some] at h
  obtain ⟨c, hs, he⟩ := Option.map_eq_some_iff.mp h.symm
  exact ⟨c, hs, (RunCtx.shape_eq_iff c c').mp he.symm⟩

theorem SameRun.learningOn {s t : State} (hr : SameRun s t) (h : Head) (w : Nat) : t.learningOn h w = s.learningOn h w := by
  cases hc : t.runs.active with
  | none =>
    have h1 := hr.1
    rw [hc, Option.map_none] at h1
    rw [learningOn_of_none hc, learningOn_of_none (Option.map_eq_none_iff.mp h1.symm)]
  | some c' =>
    obtain ⟨c, hs, hd, hh, -⟩ := hr.active hc
    rw [learningOn_of_some hc, learningOn_of_some hs, hd, hh, hr.2]

/-- What an operation writes in one cell, with what becomes of the cell's entry in the Exclusion Table and of the run that is
active on it. -/
inductive CellChange (i : Instr) (s t : State) (h : Head) (w : Nat) : Prop
  | kept (table : (h, w) ∈ t.exclusions ↔ (h, w) ∈ s.exclusions) (run : SameRun s t ∨ s.learningOn h w = false)
      (cell : t.cell h w = s.cell h w)
  | sample (instr : i = .learningOperation ∨ i.onLink = true) (table : (h, w) ∈ t.exclusions ↔ (h, w) ∈ s.exclusions)
      (run : SameRun s t) (r : HeldRecord) (ctx : RunCtx) (f : Cell → Cell) (held : s.held = some r)
      (released : t.held = none) (head : r.head = h)
      (wedge : r.wedge = w) (active : s.runs.active = some ctx) (on : s.learningOn h w = true) (write : SampleWrite s ctx r f)
      (cell : t.cell h w = f (s.cell h w))
  | data (table : (h, w) ∈ t.exclusions ↔ (h, w) ∈ s.exclusions) (run : SameRun s t) (p : Pointer) (v : Word)
      (cell : t.cell h w = s.dataWrite p v (s.cell h w))
  | unexcluded (table : (h, w) ∉ t.exclusions) (run : SameRun s t ∨ s.learningOn h w = false)
      (cell : t.cell h w = (s.cell h w).unexcluded)
  | excluded (table : (h, w) ∈ t.exclusions) (run : SameRun s t) (cell : t.cell h w = { s.cell h w with state := .excluded })
  | included (table : (h, w) ∉ t.exclusions) (run : SameRun s t) (cell : t.cell h w = (s.cell h w).included)
  | published (instr : i = .indexEvent) (table : (h, w) ∈ t.exclusions ↔ (h, w) ∈ s.exclusions) (run : SameRun s t) (r : Rev)
      (cell : t.cell h w = (s.cell h w).publish r)
  | prepared (table : (h, w) ∈ t.exclusions ↔ (h, w) ∈ s.exclusions) (off : s.learningOn h w = false) (r : Rev) (reset : Bool)
      (perm : Permission) (cell : t.cell h w = (s.cell h w).prepared r reset perm)
  | retried (table : (h, w) ∈ t.exclusions ↔ (h, w) ∈ s.exclusions) (run : SameRun s t) (cs : Bool)
      (cell : t.cell h w = (s.cell h w).retried cs)
  | cleared (table : (h, w) ∈ t.exclusions ↔ (h, w) ∈ s.exclusions) (cell : t.cell h w = (s.cell h w).clearSums)
  | swept (instr : i = .sweepStep) (table : (h, w) ∈ t.exclusions ↔ (h, w) ∈ s.exclusions) (run : SameRun s t) (k : Sweep)
      (sweep : s.sweep = some k) (head : k.nextHead = h) (wedge : k.nextWedge = w)
      (cell : t.cell h w = s.sweepCell k.kind h (s.cell h w))
  | blank (instr : (∃ x, i = .powerOnReset x)
        ∨ (WellFormed i = true → ∃ x, i = .selfTest x) ∧ s.startup.memoryFault = true)
      (table : (h, w) ∉ t.exclusions) (cell : t.cell h w = Cell.blank)

/-- An operation that writes neither the map nor the table, in which the run goes on. -/
theorem CellChange.of_map {i : Instr} {s t : State} (map : t.map = s.map) (table : t.exclusions = s.exclusions)
    (shape : t.runs.active.map RunCtx.shape = s.runs.active.map RunCtx.shape) (wedges : t.settings.wedges = s.settings.wedges)
    (h : Head) (w : Nat) : CellChange i s t h w :=
  .kept (by rw [table]) (.inl ⟨shape, wedges⟩) (by rw [State.cell, State.cell, map])

theorem CellChange.of_answered {i : Instr} {s t : State} (ha : Answered s t) (h : Head) (w : Nat) : CellChange i s t h w := by
  obtain ⟨o, f, rfl⟩ := ha
  exact .of_map (by rfl) (by rfl) (by rfl) (by rfl) h w

/-- A read of a cell after a change of whole rows that leaves the cells past the grid alone. -/
theorem cell_of_updateRows {s t : State} (hm : s.MapLaw) {p : Head → Bool} {f : Head → Nat → Cell → Cell}
    (hmap : t.map = updateRows s.map p f) (hf : ∀ k w, 512 ≤ w → f k w Cell.blank = Cell.blank) (h : Head) (w : Nat) :
    t.cell h w = if p h = true then f h w (s.cell h w) else s.cell h w := by
  rw [← cellAt_updateRows hm p f hf, ← hmap]; rfl

/-- A read of a cell after a change of the configured cells of some heads. -/
theorem cell_of_updateRows_belowW {s t : State} (hm : s.MapLaw) {p : Head → Bool} {f : Head → Cell → Cell}
    (hmap : t.map = updateRows s.map p fun h => belowW s.settings.wedges (f h)) (h : Head) (w : Nat) :
    t.cell h w = if p h = true ∧ w < s.settings.wedges then f h (s.cell h w) else s.cell h w := by
  rw [cell_of_updateRows hm hmap (fun k w hw => belowW_of_ge hm.geometry _ w hw _), belowW]
  by_cases hp : p h = true
  · simp [hp]
  · simp [hp]

/-- The cells of a run that is concluded are cleared, and on the others no run was active (R99). -/
theorem CellChange.of_concluded {i : Instr} {s t : State} (hm : s.MapLaw) {ctx c : RunCtx} (ha : s.runs.active = some ctx)
    (hs : c.shape = ctx.shape) (map : t.map = updateRows s.map c.heads.get fun _ => belowW s.settings.wedges Cell.clearSums)
    (table : t.exclusions = s.exclusions) (h : Head) (w : Nat) : CellChange i s t h w := by
  have hc := cell_of_updateRows_belowW hm (f := fun _ => Cell.clearSums) map h w
  rw [((RunCtx.shape_eq_iff ctx c).mp hs).2.1] at hc
  by_cases hon : ctx.heads.get h = true ∧ w < s.settings.wedges
  · rw [if_pos hon] at hc
    exact .cleared (by rw [table]) hc
  · rw [if_neg hon] at hc
    refine .kept (by rw [table]) (.inr ?_) hc
    rw [learningOn_of_some ha]
    cases hh : ctx.heads.get h
    · simp
    · simp only [hh, true_and] at hon
      simp [hon]

/-- With no run active the map may keep its cells whatever run begins or ends. -/
theorem CellChange.of_none {i : Instr} {s t : State} (hn : s.runs.active = none) (map : t.map = s.map)
    (table : t.exclusions = s.exclusions) (h : Head) (w : Nat) : CellChange i s t h w :=
  .kept (by rw [table]) (.inr (learningOn_of_none hn h w)) (by rw [State.cell, State.cell, map])

/-- A change of one cell of the map. -/
theorem cell_of_modifyCellOf {s t : State} (hm : s.MapLaw) {k : Head} {v : Nat} {f : Cell → Cell}
    (hmap : t.map = modifyCellOf s.map k v f) (h : Head) (w : Nat) :
    t.cell h w = if h = k ∧ w = v then f (s.cell k v) else s.cell h w := by
  rw [← cell_modifyCell hm.canonical, State.cell, State.cell, hmap, State.modifyCell_map]

/-- A granted Learning Engine operation lets the record held go; otherwise nothing changes (R42). -/
theorem grantLearning_held (s : State) : s.grantLearning = s ∨ s.grantLearning.held = none := by
  unfold State.grantLearning
  split
  · exact .inl rfl
  · split
    · exact .inl rfl
    · exact .inr (by rw [State.learnOperation_held])

theorem CellChange.learning {i : Instr} {s : State} (hm : s.MapLaw) (hi : i = .learningOperation ∨ i.onLink = true)
    (h : Head) (w : Nat) : CellChange i s s.grantLearning h w := by
  rcases grantLearning_held s with he | released
  · rw [he]; exact .of_map rfl rfl rfl rfl h w
  cases grantLearning_effect s with
  | none map shape verdicts => exact .of_map map (by simp) shape (by simp) h w
  | sample r ctx c f held active kind head conf write map after shape verdicts =>
    have hr : SameRun s s.grantLearning := ⟨by rw [after, active, Option.map_some, Option.map_some, shape], by simp⟩
    have hc := cell_of_modifyCellOf hm map h w
    by_cases hhw : h = r.head ∧ w = r.wedge
    · obtain ⟨rfl, rfl⟩ := hhw
      rw [if_pos ⟨rfl, rfl⟩] at hc
      refine .sample hi (by simp) hr r ctx f held released rfl rfl active ?_ write hc
      simp only [State.configured, Bool.and_eq_true, decide_eq_true_eq] at conf
      simp [learningOn_of_some active, kind, head, conf.2]
    · rw [if_neg hhw] at hc
      exact .kept (by simp) (.inl hr) hc

theorem CellChange.writeWord {i : Instr} {s : State} (hm : s.MapLaw) (p : Pointer) (v : Word) (h : Head) (w : Nat) :
    CellChange i s (s.writeWord p v) h w := by
  have hmap : (s.writeWord p v).map = (s.benchWrite p.head p.wedge (s.dataWrite p v)).map := rfl
  unfold State.benchWrite at hmap
  split at hmap
  · have hc := cell_of_modifyCellOf hm hmap h w
    by_cases hhw : h = p.head ∧ w = p.wedge
    · obtain ⟨rfl, rfl⟩ := hhw
      rw [if_pos ⟨rfl, rfl⟩] at hc
      exact .data (by simp) ⟨by simp, by simp⟩ p v hc
    · rw [if_neg hhw] at hc
      exact .kept (by simp) (.inl ⟨by simp, by simp⟩) hc
  · exact .of_map hmap (by simp) (by simp) (by simp) h w

/-- Emptying the Exclusion Table (R18, R198). -/
theorem CellChange.of_emptied {i : Instr} {s t : State} (hm : s.MapLaw)
    (map : t.map = updateRows s.map (fun _ => true) fun _ _ => Cell.unexcluded) (table : t.exclusions = []) (h : Head) (w : Nat)
    (run : SameRun s t ∨ s.learningOn h w = false) : CellChange i s t h w := by
  have hc := cell_of_updateRows hm map (fun _ _ _ => rfl) h w
  rw [if_pos rfl] at hc
  exact .unexcluded (by simp [table]) run hc

/-- An entry that enters the Exclusion Table (R145). -/
theorem CellChange.of_entered {i : Instr} {s t : State} (hm : s.MapLaw) {k : Head} {v : Nat}
    (map : t.map = modifyCellOf s.map k v fun c => { c with state := .excluded })
    (table : t.exclusions = insertExclusion (k, v) s.exclusions) (run : SameRun s t) (h : Head) (w : Nat) :
    CellChange i s t h w := by
  have hc := cell_of_modifyCellOf hm map h w
  by_cases hhw : h = k ∧ w = v
  · obtain ⟨rfl, rfl⟩ := hhw
    rw [if_pos ⟨rfl, rfl⟩] at hc
    exact .excluded (by simp [table, mem_insertExclusion]) run hc
  · rw [if_neg hhw] at hc
    refine .kept ?_ (.inl run) hc
    rw [table, mem_insertExclusion, Prod.mk.injEq]
    tauto

theorem CellChange.include {i : Instr} {s : State} (hm : s.MapLaw) (a b : Word) (h : Head) (w : Nat) :
    CellChange i s (s.cmdInclude a b) h w := by
  rcases cmdInclude_cases s a b with ha | ⟨k, v, hx, he⟩
  · exact .of_answered ha h w
  · rw [he]
    have hc := cell_of_modifyCellOf hm (t := State.accept { s with
            exclusions := s.exclusions.filter fun e => decide (e ≠ (k, v))
            map := modifyCellOf s.map k v Cell.included }) rfl h w
    by_cases hhw : h = k ∧ w = v
    · obtain ⟨rfl, rfl⟩ := hhw
      rw [if_pos ⟨rfl, rfl⟩] at hc
      exact .included (by simp) ⟨rfl, rfl⟩ hc
    · rw [if_neg hhw] at hc
      refine .kept ?_ (.inl ⟨rfl, rfl⟩) hc
      simp only [State.accept_exclusions, List.mem_filter, decide_eq_true_eq, ne_eq, Prod.mk.injEq]
      tauto

theorem CellChange.clearExclusions {i : Instr} {s : State} (hm : s.MapLaw) (a : Word) (h : Head) (w : Nat) :
    CellChange i s (s.cmdClearExclusions a) h w := by
  rcases cmdClearExclusions_cases s a with ha | ⟨hs, he⟩
  · exact .of_answered ha h w
  · rw [he]
    have hpast : ∀ (k : Head) (v : Nat), 512 ≤ v →
        (if s.exclusions.contains (k, v) = true then Cell.blank.included else Cell.blank) = Cell.blank :=
      fun _ _ _ => ite_self _
    have hmap : (State.accept { s with
            exclusions := s.exclusions.filter fun e => !hs.get e.1
            map := updateRows s.map hs.get fun h w c => if s.exclusions.contains (h, w) then c.included else c }).map
        = updateRows s.map hs.get fun h w c => if s.exclusions.contains (h, w) then c.included else c := State.accept_map _
    have hc := cell_of_updateRows hm hmap hpast h w
    by_cases hhs : hs.get h = true
    · rw [if_pos hhs] at hc
      by_cases hx : (h, w) ∈ s.exclusions
      · rw [if_pos (by simpa using hx)] at hc
        exact .included (by simp [hhs]) ⟨rfl, rfl⟩ hc
      · rw [if_neg (by simpa using hx)] at hc
        exact .kept (by simp [hhs, hx]) (.inl ⟨rfl, rfl⟩) hc
    · rw [if_neg hhs] at hc
      exact .kept (by simp [hhs]) (.inl ⟨rfl, rfl⟩) hc

theorem CellChange.selfTest {i : Instr} {s : State} (hi : WellFormed i = true → ∃ x, i = .selfTest x) (hm : s.MapLaw)
    (h : Head) (w : Nat) : CellChange i s s.cmdSelfTest h w := by
  by_cases hf : s.startup.memoryFault = true
  · obtain ⟨hmap, htable⟩ : s.cmdSelfTest.map = PerHead.all [] ∧ s.cmdSelfTest.exclusions = [] := by
      unfold State.cmdSelfTest State.beginTest
      dsimp only
      simp only [State.endRun_startup, hf, if_true]
      exact ⟨rfl, rfl⟩
    exact .blank (.inr ⟨hi, hf⟩) (by simp [htable]) (by simp [State.cell, hmap])
  · obtain ⟨hmap, htable⟩ : s.cmdSelfTest.map = (State.endRun { s with bench := { s.bench with stream := none } } .aborted .selfTest).map
        ∧ s.cmdSelfTest.exclusions = s.exclusions := by
      unfold State.cmdSelfTest State.beginTest
      dsimp only
      simp [State.endRun_startup, hf]
    rcases endRun_cases { s with bench := { s.bench with stream := none } } .aborted .selfTest with ⟨hn, he⟩ | ⟨ctx, ha, he⟩
    · rw [he] at hmap
      exact .of_none (s := s) hn hmap htable h w
    · rw [he, State.conclude_map] at hmap
      exact .of_concluded (s := s) hm ha rfl hmap htable h w

theorem CellChange.unitReset {i : Instr} {s : State} (hm : s.MapLaw) (h : Head) (w : Nat) :
    CellChange i s s.cmdUnitReset h w := by
  unfold State.cmdUnitReset
  split
  · exact .of_answered (answered_refuse s _) h w
  · have hc := cell_of_updateRows (t := s.applyUnitReset.accept) hm
      (by rw [State.accept_map]; exact State.applyUnitReset_map s) (fun _ _ _ => rfl) h w
    rw [if_pos rfl] at hc
    exact .cleared (by simp) hc

/-- What an operation of the link writes in a cell. -/
theorem LinkOp.cellChange {i : Instr} {s t : State} (ho : LinkOp i s t) (hm : s.MapLaw) (h : Head) (w : Nat) :
    CellChange i s t h w := by
  cases ho
  case writeWord p v hp => exact .writeWord hm p v h w
  case cmdSelfTest hi => exact .selfTest hi hm h w
  case cmdUnitReset => exact .unitReset hm h w
  case cmdInclude a b => exact .include hm a b h w
  case cmdClearExclusions a => exact .clearExclusions hm a h w
  case cmdSetGeometry a b =>
    rcases cmdSetGeometry_cases s a b with ha | ⟨-, hn, he⟩
    · exact .of_answered ha h w
    · rw [he]
      exact .of_emptied hm (by rw [State.accept_map]; exact State.applyGeometry_map s _ _) (by rfl) h w
        (.inr (learningOn_of_none hn h w))
  case cmdExclude a b =>
    rcases cmdExclude_cases s a b with ha | ⟨k, v, -, -, -, he⟩
    · exact .of_answered ha h w
    · rw [he]
      exact .of_entered hm (by rfl) (by rfl) ⟨by rfl, by rfl⟩ h w
  case cmdHaltRun =>
    rcases cmdHaltRun_cases s with ha | ⟨ctx, ha, he⟩
    · exact .of_answered ha h w
    · rw [he]
      exact .of_concluded hm ha rfl (by rfl) (by rfl) h w
  case cmdFeedForwardOff =>
    rcases cmdFeedForwardOff_cases s with ha | ⟨o, f, he⟩ | ⟨ctx, ha, he⟩
    · exact .of_answered ha h w
    · rw [he]; exact .of_map (by rfl) (by rfl) (by rfl) (by rfl) h w
    · rw [he]
      exact .of_concluded hm ha rfl (by rfl) (by rfl) h w
  case cmdSetSetting a b =>
    exact .of_map (by simp) (by simp) (by simp) (cmdSetSetting_settings s a b).2 h w
  case cmdFeedForwardOn =>
    rcases cmdFeedForwardOn_settings s with hs | hs
    all_goals exact .of_map (by simp) (by simp) (by simp) (by rw [hs]) h w
  all_goals exact .of_map (by simp) (by simp) (by simp) (by simp) h w

theorem CellChange.publishHead {s : State} (hm : s.MapLaw) (d : DueHead) (h : Head) (w : Nat) :
    CellChange .indexEvent s (s.publishHead d) h w := by
  have hc := cell_publishHead hm.canonical hm.geometry.2.2.2 d h w
  split at hc
  · exact .published rfl (by simp) ⟨by simp, by simp⟩ d.rev hc
  · exact .kept (by simp) (.inl ⟨by simp, by simp⟩) hc

theorem CellChange.runIndex {i : Instr} {s : State} (hm : s.MapLaw) (r : Rev) (h : Head) (w : Nat) :
    CellChange i s (s.runIndex r) h w := by
  rcases runIndex_cases s r with ⟨-, he⟩ | ⟨ctx, c, ha, hs, -, he | he | ⟨o, g, he⟩ | he⟩
  · rw [he]; exact .of_map (by rfl) (by rfl) (by rfl) (by rfl) h w
  · rw [he]; exact .of_map (s := s) (t := s.setRun c) rfl rfl (by rw [ha]; exact congrArg some hs) rfl h w
  · rw [he]
    have hr : SameRun s (State.setRun
        { s with map := updateRows s.map ctx.heads.get fun h _ => Cell.retried (s.perms.learning.get h).cs } c) :=
      ⟨by rw [ha]; exact congrArg some hs, rfl⟩
    have hpast : ∀ (k : Head) (v : Nat), 512 ≤ v →
        Cell.retried (s.perms.learning.get k).cs Cell.blank = Cell.blank := fun k _ _ => by
      rw [Cell.retried]; simp [Cell.blank]
    have hmap : (State.setRun
        { s with map := updateRows s.map ctx.heads.get fun h _ => Cell.retried (s.perms.learning.get h).cs } c).map
        = updateRows s.map ctx.heads.get fun h _ => Cell.retried (s.perms.learning.get h).cs := State.setRun_map _ _
    have hc := cell_of_updateRows hm hmap hpast h w
    split at hc
    · exact .retried Iff.rfl hr _ hc
    · exact .kept Iff.rfl (.inl hr) hc
  · rw [he]; exact .of_concluded hm ha hs (by rfl) (by rfl) h w
  · rw [he]; exact .of_concluded hm ha (c := { c with injection := .off }) hs (by rfl) (by rfl) h w

theorem CellChange.startRun {i : Instr} {s : State} (hm : s.MapLaw) (h : Head) (w : Nat) :
    CellChange i s s.startRun h w := by
  rcases startRun_cases s with he | ⟨d, rest, hn, -, ⟨hh, he⟩ | he⟩
  · rw [he]; exact .of_map (by rfl) (by rfl) (by rfl) (by rfl) h w
  · rw [he]
    have hc := cell_of_updateRows_belowW hm (f := fun _ => Cell.clearSums)
      (State.conclude_map { s with runs := { s.runs with queue := rest } }
        (State.startContext { s with runs := { s.runs with queue := rest } } d) .faulted .noHeads (PerHead.all .none)) h w
    split at hc
    · exact .cleared Iff.rfl hc
    · exact .kept Iff.rfl (.inr (learningOn_of_none hn h w)) hc
  · rw [he]
    have hc := cell_of_updateRows_belowW hm (State.beginRun_map { s with runs := { s.runs with queue := rest } } d) h w
    split at hc
    · exact .prepared Iff.rfl (learningOn_of_none hn h w) _ _ _ hc
    · exact .kept Iff.rfl (.inr (learningOn_of_none hn h w)) hc

theorem CellChange.autoExclusion {i : Instr} {s : State} (hm : s.MapLaw) (h : Head) (w : Nat) :
    CellChange i s s.takeAutoExclusion h w := by
  rcases s.takeAutoExclusion_cases with ⟨-, he⟩ | ⟨k, v, -, ⟨-, he⟩ | ⟨-, -, he⟩⟩
  · rw [he]; exact .of_map (by rfl) (by rfl) (by rfl) (by rfl) h w
  · rw [he]; exact .of_map (by rfl) (by rfl) (by rfl) (by rfl) h w
  · rw [he]
    split
    · exact .of_map (by rfl) (by rfl) (by rfl) (by rfl) h w
    · exact .of_entered hm (by rfl) (by rfl) ⟨by rfl, by rfl⟩ h w

theorem CellChange.sweepStep {s : State} (hm : s.MapLaw) (h : Head) (w : Nat) :
    CellChange .sweepStep s s.sweepStep h w := by
  rcases sweepStep_cases s with he | ⟨k, hk, he⟩
  · rw [he]; exact .of_map (by rfl) (by rfl) (by rfl) (by rfl) h w
  have hmap : s.sweepStep.map = modifyCellOf s.map k.nextHead k.nextWedge (s.sweepCell k.kind k.nextHead) := by
    rcases he with ⟨k', -, he⟩ | ⟨-, he⟩
    · rw [he]; rfl
    · rw [he, State.endSweep_map, State.modifyCell_map]
  have hr : SameRun s s.sweepStep := ⟨by simp, by simp⟩
  have hc := cell_of_modifyCellOf hm hmap h w
  by_cases hhw : h = k.nextHead ∧ w = k.nextWedge
  · obtain ⟨rfl, rfl⟩ := hhw
    rw [if_pos ⟨rfl, rfl⟩] at hc
    exact .swept rfl (by simp) hr k hk rfl rfl hc
  · rw [if_neg hhw] at hc
    exact .kept (by simp) (.inl hr) hc

/-- What an operation of a step writes in a cell. -/
theorem Operation.cellChange {i : Instr} {s t : State} (ho : Operation i s t) (hm : s.MapLaw) (h : Head) (w : Nat) :
    CellChange i s t h w := by
  cases ho
  case link hl => exact hl.cellChange hm h w
  case learning hi => exact .learning hm hi h w
  case publishHead d => exact .publishHead hm d h w
  case runIndex r => exact .runIndex hm r h w
  case startRun => exact .startRun hm h w
  case autoExclusion => exact .autoExclusion hm h w
  case sweepStep => exact .sweepStep hm h w
  case timerExpiry =>
    rcases timerExpiry_cases s with he | ⟨ctx, ha, he⟩
    · rw [he]; exact .of_map (by rfl) (by rfl) (by rfl) (by rfl) h w
    · rw [he]; exact .of_concluded hm ha rfl (by rfl) (by rfl) h w
  case powerOn x => 
    have hb : (s.powerOn x).map = PerHead.all [] ∧ (s.powerOn x).exclusions = [] := ⟨rfl, rfl⟩
    exact .blank (.inl ⟨x, rfl⟩) (by simp [hb.2]) (by simp [State.cell, hb.1])
  case memoryTest r =>
    by_cases hc : s.startup.unitState = .starting ∧ s.startup.phase = .memoryTest
    · refine .of_emptied hm (State.endMemoryTest_map hc r) ?_ h w (.inl ⟨by simp, by simp⟩)
      rw [State.endMemoryTest, if_pos hc]; rfl
    · rw [State.endMemoryTest, if_neg hc]
      exact .of_map (by rfl) (by rfl) (by rfl) (by rfl) h w
  all_goals exact .of_map (by simp) (by simp) (by simp) (by simp) h w

end Sys2Proof.Machine
end

section
/-! The laws of the map's cells, kept by every step: a cell is Excluded exactly when the Exclusion Table holds it (R8). -/

namespace Sys2Proof.Machine

/-! ### The state Excluded (R8) -/

theorem unexcluded_not_excluded (c : Cell) : c.unexcluded.state ≠ .excluded := by
  unfold Cell.unexcluded; split
  · simp
  · assumption

theorem included_not_excluded (c : Cell) : c.included.state ≠ .excluded := by
  unfold Cell.included; dsimp only; split <;> simp

/-- The reset of a LEARN run leaves an Excluded cell so and makes none (R90). -/
theorem resetLearn_excluded_iff (p : Permission) (c : Cell) : (c.resetLearn p).state = .excluded ↔ c.state = .excluded := by
  unfold Cell.resetLearn; (repeat' split) <;> simp_all

theorem prepared_excluded_iff (r : Rev) (b : Bool) (p : Permission) (c : Cell) :
    (c.prepared r b p).state = .excluded ↔ c.state = .excluded := by
  unfold Cell.prepared
  cases b
  · exact Iff.rfl
  · exact resetLearn_excluded_iff p c

/-- A sample enters no Excluded cell, and none becomes so (R66, R71). -/
theorem SampleWrite.state {s : State} {ctx : RunCtx} {r : HeldRecord} {f : Cell → Cell} (hw : SampleWrite s ctx r f) :
    (s.cell r.head r.wedge).state ≠ .excluded ∧ (f (s.cell r.head r.wedge)).state ≠ .excluded := by
  cases hw with
  | outlier hj =>
    have h := judgeSample_not_excluded hj (.inr rfl)
    refine ⟨h, ?_⟩
    unfold Cell.countOutlier; dsimp only; split
    · simp
    · exact h
  | accumulate hj hd =>
    have h := judgeSample_not_excluded hj (.inl rfl)
    exact ⟨h, h⟩
  | update hj write cs =>
    have h := judgeSample_not_excluded hj (.inl rfl)
    exact ⟨h, update_not_excluded _ _ _ _ _ h⟩

/-- What an operation writes in a cell keeps the law at that cell. -/
theorem CellChange.excluded_iff {i : Instr} {s t : State} {h : Head} {w : Nat} (hc : CellChange i s t h w)
    (hs : (s.cell h w).state = .excluded ↔ (h, w) ∈ s.exclusions) :
    (t.cell h w).state = .excluded ↔ (h, w) ∈ t.exclusions := by
  cases hc with
  | kept table run cell => rw [cell, table, hs]
  | sample instr table run r ctx f held released head wedge active on write cell =>
    subst head wedge
    rw [cell, table, ← hs]
    exact iff_of_false write.state.2 write.state.1
  | data table run p v cell => rw [cell, table, dataWrite_excluded_iff, hs]
  | unexcluded table run cell => rw [cell]; exact iff_of_false (unexcluded_not_excluded _) table
  | excluded table run cell => rw [cell]; exact iff_of_true rfl table
  | included table run cell => rw [cell]; exact iff_of_false (included_not_excluded _) table
  | published instr table run r cell => rw [cell, table, ← hs]; rfl
  | prepared table off r reset perm cell => rw [cell, table, prepared_excluded_iff, hs]
  | retried table run cs cell => rw [cell, table, ← hs]; rfl
  | cleared table cell => rw [cell, table, ← hs]; rfl
  | swept instr table run k sweep head wedge cell => rw [cell, table, sweepCell_excluded_iff, hs]
  | blank instr table cell => rw [cell]; exact iff_of_false (by decide) table

/-- Settles O13: no operation of a step changes a cell's state into or out of Excluded without the table. -/
theorem stepKeepsExclusionLaw : Obligations.StepKeepsExclusionLaw := by
  unfold Obligations.StepKeepsExclusionLaw
  intro s t hm hx ht
  exact (step_keeps (P := fun s => s.MapLaw ∧ s.ExclusionLaw) (fun _ _ h => ⟨{ h.1 with }, h.2⟩)
    (fun ho h => ⟨ho.mapLaw h.1, fun k w => (ho.cellChange h.1 k w).excluded_iff (h.2 k w)⟩) ⟨hm, hx⟩ ht).2

end Sys2Proof.Machine
end

section
/-! What an operation of a step can write in a head's profile, and the law of the gains it gives (R13). -/

namespace Sys2Proof.Machine

/-- What most operations leave of a profile: its gain, its pending gain or none, and its published offset or 0. -/
structure ProfileKept (p q : Profile) : Prop where
  gain : q.gain = p.gain
  pendingGain : q.pendingGain = p.pendingGain ∨ q.pendingGain = none
  offset : q.offset = p.offset ∨ q.offset = 0

theorem ProfileKept.refl (p : Profile) : ProfileKept p p := ⟨rfl, .inl rfl, .inl rfl⟩

theorem ProfileKept.trans {p q r : Profile} (h1 : ProfileKept p q) (h2 : ProfileKept q r) : ProfileKept p r where
  gain := h2.gain.trans h1.gain
  pendingGain := h2.pendingGain.elim (fun e => h1.pendingGain.imp e.trans e.trans) .inr
  offset := h2.offset.elim (fun e => h1.offset.imp e.trans e.trans) .inr

/-- Every profile keeps its gain, and its pending gain and offset or none. -/
structure KeepsProfiles (s t : State) : Prop where
  kept : ∀ h, ProfileKept (s.profile h) (t.profile h)

theorem KeepsProfiles.of_eq {s t : State} (h : t.profiles = s.profiles) : KeepsProfiles s t where
  kept k := by rw [State.profile, State.profile, h]; exact .refl _

theorem KeepsProfiles.of_update {s t : State} {f : Head → Profile → Profile} (h : t.profiles = updateProfiles s.profiles f)
    (hf : ∀ k p, ProfileKept p (f k p)) : KeepsProfiles s t where
  kept k := by rw [State.profile, State.profile, h, updateProfiles, PerHead.get_ofFn]; exact hf _ _

theorem KeepsProfiles.of_modify {s t : State} {j : Head} {f : Profile → Profile} (h : t.profiles = s.profiles.modify j f)
    (hf : ∀ p, ProfileKept p (f p)) : KeepsProfiles s t where
  kept k := by
    rw [State.profile, State.profile, h, PerHead.get_modify]
    split
    · rename_i e; subst e; exact hf _
    · exact .refl _

theorem KeepsProfiles.trans {s t u : State} (h1 : KeepsProfiles s t) (h2 : KeepsProfiles t u) : KeepsProfiles s u :=
  ⟨fun k => (h1.kept k).trans (h2.kept k)⟩

/-- What leaves every profile alone may come first. -/
theorem KeepsProfiles.after {s t u : State} (h : KeepsProfiles t u) (e : t.profiles = s.profiles) : KeepsProfiles s u :=
  .trans (.of_eq e) h

/-- What leaves every profile alone may come last. -/
theorem KeepsProfiles.before {s t u : State} (h : KeepsProfiles s t) (e : u.profiles = t.profiles) : KeepsProfiles s u :=
  h.trans (.of_eq e)

theorem KeepsProfiles.answered {s t : State} (h : Answered s t) : KeepsProfiles s t := by
  obtain ⟨o, f, rfl⟩ := h; exact ⟨fun _ => .refl _⟩

theorem profileKept_concluded (o : RunOutcome) (p : Profile) : ProfileKept p (p.concluded o) := by
  cases o
  case complete | exhausted => exact ⟨rfl, .inl rfl, .inl rfl⟩
  case aborted | faulted => exact ⟨rfl, .inr rfl, .inl rfl⟩

theorem keepsProfiles_conclude (s : State) (ctx : RunCtx) (o c g) : KeepsProfiles s (s.conclude ctx o c g) :=
  .of_update (State.conclude_profiles ..) fun _ p => by
    split
    · exact profileKept_concluded o p
    · exact .refl p

theorem keepsProfiles_endRun (s : State) (o : RunOutcome) (c : RunCause) : KeepsProfiles s (s.endRun o c) := by
  rcases endRun_cases s o c with ⟨-, he⟩ | ⟨ctx, -, he⟩
  · rw [he]; exact .of_eq rfl
  · rw [he]; exact keepsProfiles_conclude ..

theorem keepsProfiles_finishTest (s : State) (own : MemoryResult) : KeepsProfiles s (s.finishTest own) := by
  by_cases hp : own = .pass
  · exact .of_eq (by simp [State.finishTest, hp])
  · refine .of_update (f := fun _ p => { p with publishPending := false }) ?_ fun _ p => ⟨rfl, .inl rfl, .inl rfl⟩
    simp [State.finishTest, hp]

theorem keepsProfiles_endTestIfDone (s : State) : KeepsProfiles s s.endTestIfDone := by
  rcases endTestIfDone_cases s with he | ⟨own, he⟩
  · rw [he]; exact .of_eq rfl
  · rw [he]; exact keepsProfiles_finishTest s own

theorem keepsProfiles_recordPresence (s : State) (p : Presence) : KeepsProfiles s (s.recordPresence p) :=
  (keepsProfiles_endTestIfDone _).after rfl

theorem keepsProfiles_endSweep (s : State) (w : Sweep) : KeepsProfiles s (s.endSweep w) := by
  have htest (u : Startup) : KeepsProfiles s (State.endTestIfDone { s with sweep := none, startup := u }) :=
    (keepsProfiles_endTestIfDone _).after rfl
  unfold State.endSweep
  dsimp only
  split
  · refine .of_update (by dsimp only) fun _ p => ?_
    split <;> exact ⟨rfl, .inl rfl, .inl rfl⟩
  · exact .of_eq rfl
  all_goals
    split
    · exact htest _
    all_goals exact .of_eq rfl

theorem keepsProfiles_sweepStep (s : State) : KeepsProfiles s s.sweepStep := by
  rcases sweepStep_cases s with he | ⟨k, -, ⟨k', -, he⟩ | ⟨-, he⟩⟩
  · rw [he]; exact .of_eq rfl
  · rw [he]; exact .of_eq rfl
  · rw [he]; exact (keepsProfiles_endSweep _ _).after rfl

/-- A position error lies within -1023..+1023 (R37). -/
theorem positionError_natAbs_le {amin gain a b c d : Nat} {e : Int} (h : positionError amin gain a b c d = .error e) :
    e.natAbs ≤ 1023 := by
  have hs (p : Int) : (scaleByGain gain p).natAbs ≤ 1023 := by unfold scaleByGain clampInt; omega
  unfold positionError at h
  split at h
  · cases h
  · split at h
    · cases h; exact hs _
    · split at h
      · cases h
      · dsimp only at h
        generalize (if 0 < pairRatio a b then (512 - (pairRatio c d).natAbs : Int) else -(512 - (pairRatio c d).natAbs)) = p at h
        split at h
        · cases h
        · cases h; exact hs p

/-- What taking a record can do: nothing, or the oldest record is taken and discarded, or passed on with its position error
(R29 to R41). -/
theorem takeRecord_cases (s : State) :
    s.takeRecord = s ∨ ∃ r rest, let u : State := { s with capture := { s.capture with fifo := rest } }
      (∃ d, s.takeRecord = u.countDiscard d) ∨ ∃ e : Int, e.natAbs ≤ 1023 ∧ s.takeRecord = u.finishStage3 r e := by
  unfold State.takeRecord
  split
  · exact .inl rfl
  · split
    · exact .inl rfl
    · rename_i r rest _
      refine .inr ⟨r, rest, ?_⟩
      unfold State.processRecord
      split
      · exact .inl ⟨_, rfl⟩
      · exact .inl ⟨_, rfl⟩
      · rename_i e he
        exact .inr ⟨e, positionError_natAbs_le he, rfl⟩

theorem keepsProfiles_takeRecord (s : State) : KeepsProfiles s s.takeRecord := by
  rcases takeRecord_cases s with he | ⟨r, rest, ⟨d, he⟩ | ⟨e, -, he⟩⟩
  · rw [he]; exact .of_eq rfl
  · rw [he]; exact .of_eq rfl
  · rw [he]
    unfold State.finishStage3
    refine .of_modify (by dsimp only) fun p => ?_
    exact ⟨rfl, .inl rfl, .inl rfl⟩

/-- The heads' profiles after a Self-Test: kept, or those of power-on where the memory test failed (R202, R197). -/
theorem selfTest_profiles (s : State) : KeepsProfiles s s.cmdSelfTest ∨ ∀ h, s.cmdSelfTest.profile h = {} := by
  have hend : KeepsProfiles s (State.endRun { s with bench := { s.bench with stream := none } } .aborted .selfTest) :=
    (keepsProfiles_endRun _ _ _).after rfl
  unfold State.cmdSelfTest State.beginTest
  dsimp only
  split
  · exact .inr fun h => PerHead.get_all _ h
  · exact .inl (hend.trans (.of_update (f := fun _ p => { p with pendingGain := none }) rfl
      fun _ p => ⟨rfl, .inr rfl, .inl rfl⟩))

/-- What an operation writes in one head's profile. -/
inductive ProfileChange (i : Instr) (s t : State) (h : Head) : Prop
  | kept (k : ProfileKept (s.profile h) (t.profile h))
  | gainSet (g : Nat) (range : gainLegal g) (profile : t.profile h = { s.profile h with gain := g })
  | published (instr : i = .indexEvent) (d : DueHead)
      (profile : t.profile h = (s.profile h).publish d (s.newOffset h))
  | computed (g : Nat) (range : gainLegal g) (gain : (t.profile h).gain = (s.profile h).gain)
      (pendingGain : (t.profile h).pendingGain = some g) (offset : (t.profile h).offset = (s.profile h).offset)
  | fresh (profile : t.profile h = {})

theorem KeepsProfiles.change {i : Instr} {s t : State} (hk : KeepsProfiles s t) (h : Head) : ProfileChange i s t h :=
  .kept (hk.kept h)

theorem gainLegal_clampNat (n : Nat) : gainLegal (clampNat 8192 32767 n) := by
  unfold gainLegal clampNat; omega

/-- A computed gain lies within its range (R117). -/
theorem gainOf_legal {w m step gain : Nat} {p : PhaseSums} {g : Nat} (h : gainOf w m step gain p = .gain g) : gainLegal g := by
  unfold gainOf at h
  split at h
  · cases h
  · dsimp only at h
    split at h
    · cases h
    · split at h
      · cases h
      · cases h; unfold gainLegal; omega

theorem gainResults_legal {s : State} {ctx : RunCtx} {h : Head} {g : Nat} (hg : (s.gainResults ctx).get h = .gain g) :
    gainLegal g := by
  rw [State.gainResults, PerHead.get_ofFn] at hg
  split at hg
  · exact gainOf_legal hg
  · cases hg

theorem ProfileChange.concludeGain {i : Instr} (s : State) (ctx : RunCtx) (h : Head) :
    ProfileChange i s (s.concludeGain ctx) h := by
  have hp : (s.concludeGain ctx).profile h = if ctx.heads.get h = true
      then ((s.profile h).takeGain ((s.gainResults ctx).get h)).concluded .complete
      else (s.profile h).takeGain ((s.gainResults ctx).get h) := by
    unfold State.concludeGain State.profile
    dsimp only
    rw [State.conclude_profiles, updateProfiles, PerHead.get_ofFn]
    dsimp only
    rw [updateProfiles, PerHead.get_ofFn]
  cases hg : (s.gainResults ctx).get h with
  | gain g =>
    rw [hg] at hp
    refine .computed g (gainResults_legal hg) ?_ ?_ ?_ <;> rw [hp] <;> split <;> rfl
  | none | insufficient | nonPositiveStep | gainRange =>
    rw [hg] at hp
    refine .kept ?_
    rw [hp]
    split <;> exact ⟨rfl, .inl rfl, .inl rfl⟩

theorem ProfileChange.runIndex {i : Instr} (s : State) (r : Rev) (h : Head) : ProfileChange i s (s.runIndex r) h := by
  rcases runIndex_cases s r with ⟨-, he⟩ | ⟨ctx, c, -, -, -, he | he | ⟨o, g, he⟩ | he⟩
  · rw [he]; exact .kept (.refl _)
  · rw [he]; exact .kept (.refl _)
  · rw [he]; exact .kept (.refl _)
  · rw [he]; exact (keepsProfiles_conclude ..).change h
  · rw [he]; exact .concludeGain s c h

theorem ProfileChange.publishHead (s : State) (d : DueHead) (h : Head) :
    ProfileChange .indexEvent s (s.publishHead d) h := by
  by_cases hk : h = d.head
  · subst hk
    unfold State.publishHead
    split
    · exact .published rfl d (by simp [State.profile, PerHead.get_modify])
    · exact .kept (.refl _)
  · refine .kept ?_
    rw [State.profile, State.profile, (publishHead_other hk s).2]; exact .refl _

theorem ProfileChange.setHeadGain {i : Instr} (s : State) (a b : Word) (h : Head) :
    ProfileChange i s (s.cmdSetHeadGain a b) h := by
  rcases judged_cases s _ with ⟨o, hj⟩ | hj
  · exact (KeepsProfiles.answered (answered_of_eq_refuse hj)).change h
  rw [State.cmdSetHeadGain, hj]
  clear hj
  split
  · exact (KeepsProfiles.answered (answered_refuse s _)).change h
  · rename_i k _
    by_cases hk : h = k
    · subst hk
      exact .gainSet _ (gainLegal_clampNat b.toNat) (by simp [State.profile, PerHead.get_modify])
    · exact .kept (by simp [State.profile, PerHead.get_modify, hk, ProfileKept.refl])

/-- What an operation of the link writes in a head's profile. -/
theorem LinkOp.profileChange {i : Instr} {s t : State} (ho : LinkOp i s t) (h : Head) : ProfileChange i s t h := by
  cases ho
  case importMatch k =>
    exact (KeepsProfiles.of_modify (State.importMatch_profiles s k) fun p => ⟨rfl, .inl rfl, .inl rfl⟩).change h
  case importFail k =>
    exact (KeepsProfiles.of_modify (State.importFail_profiles s k) fun p => ⟨rfl, .inl rfl, .inl rfl⟩).change h
  case cmdSetHeadGain a b => exact .setHeadGain s a b h
  case cmdSetHeadOptions a b c d =>
    rcases judged_cases s _ with ⟨o, hj⟩ | hj
    · exact (KeepsProfiles.answered (answered_of_eq_refuse hj)).change h
    rw [State.cmdSetHeadOptions, hj]
    clear hj
    split
    · exact (KeepsProfiles.answered (answered_refuse s _)).change h
    · split
      · exact (KeepsProfiles.answered (answered_refuse s _)).change h
      · refine (KeepsProfiles.before ?_ (State.accept_profiles _)).change h
        refine .of_modify (by unfold State.modifyProfile; dsimp only) fun p => ?_
        exact ⟨rfl, .inl rfl, .inl rfl⟩
  case cmdPublishNow a =>
    rcases judged_cases s _ with ⟨o, hj⟩ | hj
    · exact (KeepsProfiles.answered (answered_of_eq_refuse hj)).change h
    rw [State.cmdPublishNow, hj]
    clear hj
    dsimp only
    split
    · exact (KeepsProfiles.answered (answered_refuse s _)).change h
    · refine (KeepsProfiles.before ?_ (State.accept_profiles _)).change h
      refine .of_update (by dsimp only) fun _ p => ?_
      split <;> exact ⟨rfl, .inl rfl, .inl rfl⟩
  case cmdSelfTest =>
    rcases selfTest_profiles s with hk | hf
    · exact hk.change h
    · exact .fresh (hf h)
  case cmdUnitReset =>
    unfold State.cmdUnitReset
    split
    · exact (KeepsProfiles.answered (answered_refuse s _)).change h
    · refine (KeepsProfiles.before ?_ (State.accept_profiles _)).change h
      unfold State.applyUnitReset
      refine .of_update (by dsimp only) fun _ p => ?_
      exact ⟨rfl, .inr rfl, .inl rfl⟩
  case cmdSetGeometry a b =>
    rcases cmdSetGeometry_cases s a b with ha | ⟨-, -, he⟩
    · exact (KeepsProfiles.answered ha).change h
    · rw [he]
      refine (KeepsProfiles.before ?_ (State.accept_profiles _)).change h
      unfold State.applyGeometry
      refine .of_update (by dsimp only) fun _ p => ?_
      exact ⟨rfl, .inr rfl, .inr rfl⟩
  case cmdHaltRun =>
    rcases cmdHaltRun_cases s with ha | ⟨ctx, -, he⟩
    · exact (KeepsProfiles.answered ha).change h
    · rw [he]; exact ((keepsProfiles_conclude ..).before (State.accept_profiles _)).change h
  case cmdFeedForwardOff =>
    rcases cmdFeedForwardOff_cases s with ha | ha | ⟨ctx, -, he⟩
    · exact (KeepsProfiles.answered ha).change h
    · exact ((KeepsProfiles.answered ha).after (s := s) rfl).change h
    · rw [he]
      exact (((keepsProfiles_conclude s.forwardOff ..).after (s := s) rfl).before (State.accept_profiles _)).change h
  all_goals exact (KeepsProfiles.of_eq (by simp)).change h

/-- What an operation of a step writes in a head's profile. -/
theorem Operation.profileChange {i : Instr} {s t : State} (ho : Operation i s t) (h : Head) : ProfileChange i s t h := by
  cases ho
  case link hl => exact hl.profileChange h
  case publishHead d => exact .publishHead s d h
  case runIndex r => exact .runIndex s r h
  case sweepStep => exact (keepsProfiles_sweepStep s).change h
  case powerOn x => exact .fresh (PerHead.get_all _ h)
  case startRun =>
    refine KeepsProfiles.change ?_ h
    rcases startRun_cases s with he | ⟨d, rest, -, -, ⟨-, he⟩ | he⟩
    · rw [he]; exact .of_eq rfl
    · rw [he]; exact (keepsProfiles_conclude ..).after rfl
    · rw [he]
      unfold State.beginRun
      refine .of_update (by dsimp only) fun _ p => ?_
      split <;> exact ⟨rfl, .inl rfl, .inl rfl⟩
  case timerExpiry =>
    refine KeepsProfiles.change ?_ h
    rcases timerExpiry_cases s with he | ⟨ctx, -, he⟩
    · rw [he]; exact .of_eq rfl
    · rw [he]; exact (keepsProfiles_conclude ..).before (State.raise_profiles ..)
  case memoryTest r =>
    refine KeepsProfiles.change ?_ h
    unfold State.endMemoryTest
    split
    · refine .of_update (f := fun _ p =>
        { p with offset := 0, importFault := false, publishPending := false, pendingGain := none }) ?_
        fun _ p => ⟨rfl, .inr rfl, .inr rfl⟩
      unfold State.prepareMap
      simp
    · exact .of_eq rfl
  case takeRecord => exact (keepsProfiles_takeRecord s).change h
  case assertPresent =>
    refine KeepsProfiles.change ?_ h
    unfold State.assertPresent
    split
    · exact (keepsProfiles_recordPresence _ _).after rfl
    · exact .of_eq rfl
  case seePresent =>
    refine KeepsProfiles.change ?_ h
    unfold State.seePresent
    split
    · exact (keepsProfiles_recordPresence _ _).after rfl
    · exact .of_eq rfl
  case closePresence =>
    refine KeepsProfiles.change ?_ h
    unfold State.closePresence
    split
    · exact keepsProfiles_recordPresence _ _
    · exact .of_eq rfl
  case seePassed =>
    refine KeepsProfiles.change ?_ h
    unfold State.seePassed
    split
    · exact (keepsProfiles_endTestIfDone _).after rfl
    · exact .of_eq rfl
  case pairTimeout =>
    refine KeepsProfiles.change ?_ h
    unfold State.pairTimeout
    split
    · exact (keepsProfiles_endTestIfDone _).after rfl
    · exact .of_eq rfl
  all_goals exact (KeepsProfiles.of_eq (by simp)).change h

/-! ### The gains (R13) -/

theorem ProfileChange.gainLaw {i : Instr} {s t : State} {h : Head} (hc : ProfileChange i s t h)
    (hs : gainLegal (s.profile h).gain ∧ ∀ g, (s.profile h).pendingGain = some g → gainLegal g) :
    gainLegal (t.profile h).gain ∧ ∀ g, (t.profile h).pendingGain = some g → gainLegal g := by
  obtain ⟨hg, hp⟩ := hs
  cases hc with
  | kept k =>
    rw [k.gain]
    refine ⟨hg, ?_⟩
    rcases k.pendingGain with e | e <;> rw [e]
    · exact hp
    · exact nofun
  | gainSet g range profile => rw [profile]; exact ⟨range, hp⟩
  | published instr d profile =>
    rw [profile, Profile.publish]
    dsimp only
    cases d.gainFound with
    | false => exact ⟨hg, hp⟩
    | true =>
      refine ⟨?_, nofun⟩
      cases hq : (s.profile h).pendingGain with
      | none => exact hg
      | some g => exact hp g hq
  | computed g range gain pendingGain offset =>
    rw [gain, pendingGain]
    exact ⟨hg, fun _ e => Option.some.inj e ▸ range⟩
  | fresh profile => rw [profile]; exact ⟨by unfold gainLegal; decide, nofun⟩

/-- Settles O15: a gain is written at its setting and its computation, clamped or checked, and else taken from the pending
gain. -/
theorem stepKeepsGainLaw : Obligations.StepKeepsGainLaw := by
  unfold Obligations.StepKeepsGainLaw
  intro s t hs ht
  exact step_keeps (P := State.GainLaw) (fun _ _ h => h) (fun ho h k => (ho.profileChange k).gainLaw (h k)) hs ht

end Sys2Proof.Machine
end

section
/-! The ranges of the settings that writes are clamped to, the values a sweep writes, and the law of the corrections (R6, R13). -/

namespace Sys2Proof.Machine

/-! ### The settings and the sweep -/

/-- The maximum correction and the depth are kept, or set within their ranges (R191). -/
structure SettingsRange (a b : Settings) : Prop where
  cmax : b.cmax = a.cmax ∨ 64 ≤ b.cmax ∧ b.cmax ≤ 2047
  depth : b.depth = a.depth ∨ depthLegal b.depth

theorem SettingsRange.of_eq {a b : Settings} (h : b = a) : SettingsRange a b := by rw [h]; exact ⟨.inl rfl, .inl rfl⟩

theorem depthLegal_roundDepth (n : Nat) : depthLegal (roundDepth n) := by
  unfold roundDepth depthLegal; (repeat' split) <;> simp

theorem settingsRange_write {a b : Settings} {sel v : Nat} (h : a.write sel v = some b) : SettingsRange a b := by
  unfold Settings.write at h
  split at h
  case h_10 => cases h
  case h_1 => cases h; exact ⟨.inl rfl, .inr (depthLegal_roundDepth _)⟩
  case h_6 => cases h; exact ⟨.inr ⟨by dsimp only [clampNat]; omega, by dsimp only [clampNat]; omega⟩, .inl rfl⟩
  all_goals cases h; exact ⟨.inl rfl, .inl rfl⟩

theorem LinkOp.settingsRange {i : Instr} {s t : State} (ho : LinkOp i s t) : SettingsRange s.settings t.settings := by
  cases ho
  case cmdSetSetting a b =>
    rcases judged_cases s _ with ⟨o, hj⟩ | hj
    · exact .of_eq (by rw [State.cmdSetSetting, hj]; rfl)
    rw [State.cmdSetSetting, hj]
    clear hj
    split
    · exact .of_eq rfl
    · rename_i b hb; exact settingsRange_write hb
  case cmdSetGeometry a b =>
    rcases cmdSetGeometry_cases s a b with ⟨o, f, he⟩ | ⟨-, -, he⟩
    all_goals rw [he]; exact ⟨.inl rfl, .inl rfl⟩
  case cmdFeedForwardOn =>
    rcases cmdFeedForwardOn_settings s with he | he
    all_goals rw [he]; exact ⟨.inl rfl, .inl rfl⟩
  case cmdFeedForwardOff =>
    rcases cmdFeedForwardOff_cases s with ⟨o, f, he⟩ | ⟨o, f, he⟩ | ⟨ctx, -, he⟩
    all_goals rw [he]; exact ⟨.inl rfl, .inl rfl⟩
  all_goals exact .of_eq (by simp)

theorem Operation.settingsRange {i : Instr} {s t : State} (ho : Operation i s t) : SettingsRange s.settings t.settings := by
  cases ho
  case link hl => exact hl.settingsRange
  case powerOn x => 
    have hset : (s.powerOn x).settings = {} := rfl
    rw [hset]
    exact ⟨.inr (by decide), .inr (by unfold depthLegal; decide)⟩
  all_goals exact .of_eq (by simp)

/-- The value a sweep writes is that of a sweep in flight before, a value clamped to the maximum correction, or none (R24,
R27). -/
inductive SweepValue (s : State) : SweepKind → Prop
  | going (k : Sweep) (sweep : s.sweep = some k) : SweepValue s k.kind
  | fill (v : Int) (l : Bool) : SweepValue s (.fill (clampCorr s.settings.cmax v) l)
  | geometry : SweepValue s .geometry
  | selfTest : SweepValue s .selfTest
  | powerOn : SweepValue s .powerOn

theorem SweepValue.of_eq {s t : State} (h : t.sweep = s.sweep) {w : Sweep} (hw : t.sweep = some w) : SweepValue s w.kind :=
  .going w (h ▸ hw)

theorem Sweep.kind_advance {k k' : Sweep} (h : k.advance = some k') : k'.kind = k.kind := by
  unfold Sweep.advance at h
  split at h
  · cases h; rfl
  · split at h
    · cases h; rfl
    · cases h

theorem LinkOp.sweepValue {i : Instr} {s t : State} (ho : LinkOp i s t) {w : Sweep} (hw : t.sweep = some w) :
    SweepValue s w.kind := by
  cases ho
  case cmdFill a b =>
    rcases cmdFill_cases s a b with ⟨o, f, he⟩ | he
    · exact .of_eq (by rw [he]) hw
    · rw [he, State.accept_sweep] at hw
      exact Option.some.inj hw ▸ .fill _ _
  case cmdSetGeometry a b =>
    rcases cmdSetGeometry_cases s a b with ⟨o, f, he⟩ | ⟨-, -, he⟩
    · exact .of_eq (by rw [he]) hw
    · rw [he, State.accept_sweep] at hw
      exact Option.some.inj hw ▸ .geometry
  case cmdSelfTest =>
    have hn : s.cmdSelfTest.sweep = none := by
      unfold State.cmdSelfTest State.beginTest
      dsimp only
      split <;> rfl
    rw [hn] at hw
    cases hw
  all_goals exact .of_eq (by simp) hw

theorem Operation.sweepValue {i : Instr} {s t : State} (ho : Operation i s t) {w : Sweep} (hw : t.sweep = some w) :
    SweepValue s w.kind := by
  cases ho
  case link hl => exact hl.sweepValue hw
  case powerOn x => cases (show none = some w from hw)
  case memoryTest r =>
    unfold State.endMemoryTest at hw
    split at hw
    · rw [← Option.some.inj hw]
      show SweepValue s (if s.startup.powerOnTest then SweepKind.powerOn else .selfTest)
      split
      · exact .powerOn
      · exact .selfTest
    · exact .going w hw
  case sweepStep =>
    rcases sweepStep_cases s with he | ⟨k, hk, ⟨k', ha, he⟩ | ⟨-, he⟩⟩
    · exact .of_eq (by rw [he]) hw
    · rw [he] at hw
      rw [← Option.some.inj hw, Sweep.kind_advance ha]
      exact .going k hk
    · rw [he, State.endSweep_sweep] at hw
      cases hw
  all_goals exact .of_eq (by simp) hw

/-! ### The corrections -/

theorem withinRange_zero : withinRange 0 := by unfold withinRange; decide

theorem withinRange_clampCorr {m : Nat} (hm : m ≤ 2047) (x : Int) : withinRange (clampCorr m x) := by
  unfold withinRange clampCorr clampInt; omega

/-- A mean of corrections lies in their range (R76). -/
theorem withinRange_meanOf {xs : List Int} (h : ∀ x ∈ xs, withinRange x) : withinRange (meanOf xs) := by
  have hsum : xs.sum.natAbs ≤ 2047 * xs.length := by
    induction xs with
    | nil => simp
    | cons x xs ih =>
      have hx := h x List.mem_cons_self
      have ht := ih fun y hy => h y (List.mem_cons_of_mem x hy)
      unfold withinRange at hx
      rw [List.sum_cons, List.length_cons]
      omega
  unfold meanOf
  split
  · exact withinRange_zero
  · rename_i hl
    have hr := rounded_natAbs_le xs.sum xs.length 2047 (Nat.pos_of_ne_zero hl) hsum
    unfold withinRange; omega

theorem withinRange_newOffset {s : State} (hs : s.CorrectionLaw) (h : Head) : withinRange (s.newOffset h) := by
  refine withinRange_meanOf fun x hx => ?_
  obtain ⟨w, -, rfl⟩ := List.mem_map.mp hx
  exact (hs.cells h w).1

/-- The working and the published correction of a cell. -/
def Cell.inRange (c : Cell) : Prop := withinRange c.working ∧ withinRange c.published

theorem inRange_prepared {c : Cell} (h : c.inRange) (r : Rev) (b : Bool) (p : Permission) : (c.prepared r b p).inRange := by
  have hl : (c.resetLearn p).inRange := by
    unfold Cell.resetLearn
    split
    · exact h
    · refine ⟨?_, h.2⟩
      show withinRange (if p.wc = true then 0 else c.working)
      split
      · exact withinRange_zero
      · exact h.1
  unfold Cell.prepared
  cases b
  · exact h
  · exact hl

theorem inRange_benchWorking {c : Cell} (h : c.inRange) {m : Nat} (hm : m ≤ 2047) (wc : Bool) (v : Int) :
    (c.benchWorking m wc v).inRange := by
  unfold Cell.benchWorking
  dsimp only
  split
  · exact ⟨withinRange_clampCorr hm v, h.2⟩
  · exact h

/-- A data word writes a clamped value or none (R166). -/
theorem inRange_dataWrite {s : State} (hs : s.settings.cmax ≤ 2047) {c : Cell} (h : c.inRange) (p : Pointer) (v : Word) :
    (s.dataWrite p v c).inRange := by
  unfold State.dataWrite
  dsimp only
  split
  · unfold Cell.benchPacked
    dsimp only
    split
    · exact inRange_benchWorking h hs _ _
    · exact inRange_benchWorking h hs _ _
  · split
    · exact inRange_benchWorking h hs _ _
    · exact h
    · unfold Cell.benchStatus Cell.writeState
      (repeat' split) <;> exact h

/-- A sweep writes its value or 0 (R24, R27). -/
theorem inRange_sweepCell (s : State) {k : SweepKind} (hk : k.valueLegal) {c : Cell} (h : c.inRange) (j : Head) :
    (s.sweepCell k j c).inRange := by
  unfold State.sweepCell
  split
  · refine ⟨?_, h.2⟩
    show withinRange (if (s.perms.sweep.get j).wc = true then _ else c.working)
    split
    · exact hk
    · exact h.1
  all_goals exact ⟨withinRange_zero, withinRange_zero⟩

/-- A sample moves the working correction to a clamped one at most (R70). -/
theorem SampleWrite.inRange {s : State} {ctx : RunCtx} {r : HeldRecord} {f : Cell → Cell} (hw : SampleWrite s ctx r f)
    (hs : s.settings.cmax ≤ 2047) {c : Cell} (h : c.inRange) : (f c).inRange := by
  cases hw with
  | outlier => exact h
  | accumulate => exact h
  | update hj write cs =>
    refine ⟨?_, h.2⟩
    show withinRange (if write = true then newCorrection _ _ _ else _)
    split
    · exact withinRange_clampCorr hs _
    · exact h.1

/-- What an operation writes in a cell keeps its corrections in range. -/
theorem CellChange.inRange {i : Instr} {s t : State} {h : Head} {w : Nat} (hc : CellChange i s t h w) (hs : s.CorrectionLaw) :
    (t.cell h w).inRange := by
  have h0 : (s.cell h w).inRange := hs.cells h w
  cases hc with
  | kept table run cell => rw [cell]; exact h0
  | sample instr table run r ctx f held released head wedge active on write cell =>
    rw [cell]; exact write.inRange hs.cmax.2 h0
  | data table run p v cell => rw [cell]; exact inRange_dataWrite hs.cmax.2 h0 p v
  | unexcluded table run cell => rw [cell, Cell.unexcluded]; split <;> exact h0
  | excluded table run cell => rw [cell]; exact h0
  | included table run cell => rw [cell]; exact h0
  | published instr table run r cell => rw [cell]; exact ⟨h0.1, h0.1⟩
  | prepared table off r reset perm cell => rw [cell]; exact inRange_prepared h0 r reset perm
  | retried table run cs cell => rw [cell]; exact h0
  | cleared table cell => rw [cell]; exact h0
  | swept instr table run k sweep head wedge cell => rw [cell]; exact inRange_sweepCell s (hs.fills k sweep) h0 h
  | blank instr table cell => rw [cell]; exact ⟨withinRange_zero, withinRange_zero⟩

/-- What an operation writes in a head's profile keeps the published offset in range. -/
theorem ProfileChange.offset {i : Instr} {s t : State} {h : Head} (hc : ProfileChange i s t h) (hs : s.CorrectionLaw) :
    withinRange (t.profile h).offset := by
  cases hc with
  | kept k =>
    rcases k.offset with e | e <;> rw [e]
    · exact hs.offsets h
    · exact withinRange_zero
  | gainSet g range profile => rw [profile]; exact hs.offsets h
  | published instr d profile => rw [profile]; exact withinRange_newOffset hs h
  | computed g range gain pendingGain offset => rw [offset]; exact hs.offsets h
  | fresh profile => rw [profile]; exact withinRange_zero

theorem SweepValue.valueLegal {s : State} {k : SweepKind} (h : SweepValue s k) (hs : s.CorrectionLaw) : k.valueLegal := by
  cases h with
  | going k sweep => exact hs.fills k sweep
  | fill v l => exact withinRange_clampCorr hs.cmax.2 v
  | geometry | selfTest | powerOn => trivial

theorem Operation.correctionLaw {i : Instr} {s t : State} (ho : Operation i s t) (hm : s.MapLaw) (hs : s.CorrectionLaw) :
    t.CorrectionLaw where
  cmax := ho.settingsRange.cmax.elim (fun e => e ▸ hs.cmax) id
  cells h w := (ho.cellChange hm h w).inRange hs
  offsets h := (ho.profileChange h).offset hs
  fills _ hw := (ho.sweepValue hw).valueLegal hs

/-- Settles O14: every correction written is clamped, moved from a working one, the mean of such or 0. -/
theorem stepKeepsCorrectionLaw : Obligations.StepKeepsCorrectionLaw := by
  unfold Obligations.StepKeepsCorrectionLaw
  intro s t hm hs ht
  exact (step_keeps (P := fun s => s.MapLaw ∧ s.CorrectionLaw) (fun _ _ h => ⟨{ h.1 with }, { h.2 with }⟩)
    (fun ho h => ⟨ho.mapLaw h.1, ho.correctionLaw h.1 h.2⟩) ⟨hm, hs⟩ ht).2

end Sys2Proof.Machine
end

section
/-! What an operation of a step does to the run, to the record held and to the sums of a cell, and the law of the counts (R5,
R69). -/

namespace Sys2Proof.Machine

/-! ### The run and the record held -/

/-- What becomes of the active run: it goes on, it is gone, or one has begun with the depth in force (R89). -/
inductive RunChange (s t : State) : Prop
  | same (shape : t.runs.active.map RunCtx.shape = s.runs.active.map RunCtx.shape)
  | ended (active : t.runs.active = none)
  | begun (c : RunCtx) (active : t.runs.active = some c) (depth : c.depth = s.settings.depth)

theorem RunChange.answered {s t : State} (h : Answered s t) : RunChange s t := by
  obtain ⟨o, f, rfl⟩ := h; exact .same rfl

theorem endRun_active (s : State) (o : RunOutcome) (c : RunCause) : (s.endRun o c).runs.active = none := by
  rcases endRun_cases s o c with ⟨hn, he⟩ | ⟨ctx, -, he⟩
  · rw [he, hn]
  · rw [he]; rfl

theorem cmdSelfTest_active (s : State) : s.cmdSelfTest.runs.active = none := by
  unfold State.cmdSelfTest State.beginTest
  dsimp only
  split <;> exact endRun_active _ _ _

theorem LinkOp.runChange {i : Instr} {s t : State} (ho : LinkOp i s t) : RunChange s t := by
  cases ho
  case cmdSelfTest => exact .ended (cmdSelfTest_active s)
  case cmdUnitReset =>
    unfold State.cmdUnitReset
    split
    · exact .answered (answered_refuse s _)
    · exact .ended rfl
  case cmdHaltRun =>
    rcases cmdHaltRun_cases s with ha | ⟨ctx, -, he⟩
    · exact .answered ha
    · rw [he]; exact .ended rfl
  case cmdFeedForwardOff =>
    rcases cmdFeedForwardOff_cases s with ha | ⟨o, f, he⟩ | ⟨ctx, -, he⟩
    · exact .answered ha
    · rw [he]; exact .same rfl
    · rw [he]; exact .ended rfl
  all_goals exact .same (by simp)

theorem Operation.runChange {i : Instr} {s t : State} (ho : Operation i s t) : RunChange s t := by
  cases ho
  case link hl => exact hl.runChange
  case learning =>
    cases grantLearning_effect s with
    | none map shape verdicts => exact .same shape
    | sample r ctx c f held active kind head conf write map after shape verdicts =>
      exact .same (by rw [after, active, Option.map_some, Option.map_some, shape])
  case runIndex r =>
    rcases runIndex_cases s r with ⟨-, he⟩ | ⟨ctx, c, ha, hs, -, he | he | ⟨o, g, he⟩ | he⟩
    · rw [he]; exact .same rfl
    · rw [he]; exact .same (by rw [ha]; exact congrArg some hs)
    · rw [he]; exact .same (by rw [ha]; exact congrArg some hs)
    · rw [he]; exact .ended rfl
    · rw [he]; exact .ended rfl
  case timerExpiry =>
    rcases timerExpiry_cases s with he | ⟨ctx, -, he⟩
    · rw [he]; exact .same rfl
    · rw [he]; exact .ended rfl
  case startRun =>
    rcases startRun_cases s with he | ⟨d, rest, -, -, ⟨-, he⟩ | he⟩
    · rw [he]; exact .same rfl
    · rw [he]; exact .ended rfl
    · rw [he]; exact .begun _ rfl rfl
  case powerOn x => exact .ended rfl
  all_goals exact .same (by simp)

/-- The record held after an operation is the one held before, or one just taken, whose position error is in range (R37,
R41). -/
theorem Operation.held {i : Instr} {s t : State} (ho : Operation i s t) {r : HeldRecord} (hr : t.held = some r) :
    s.held = some r ∨ r.e.natAbs ≤ 1023 := by
  have same (e : t.held = s.held) : s.held = some r ∨ r.e.natAbs ≤ 1023 := .inl (e ▸ hr)
  cases ho
  case link hl =>
    cases hl
    case cmdUnitReset =>
      unfold State.cmdUnitReset at hr
      split at hr
      · exact .inl hr
      · cases (show none = some r from hr)
    all_goals exact same (by simp)
  case learning =>
    unfold State.grantLearning at hr
    split at hr
    · exact .inl hr
    · split at hr
      · exact .inl hr
      · rw [State.learnOperation_held] at hr; cases hr
  case takeRecord =>
    rcases takeRecord_cases s with he | ⟨q, rest, ⟨d, he⟩ | ⟨e, hb, he⟩⟩
    · exact same (by rw [he])
    · exact same (by rw [he]; rfl)
    · rw [he] at hr
      obtain ⟨c, -, hc⟩ := Option.map_eq_some_iff.mp (show Option.map _ (State.admitting _ q.head) = some r from hr)
      subst hc
      exact .inr hb
  case powerOn x => cases (show none = some r from hr)
  all_goals exact same (by simp)

/-! ### The sums of a cell (R69) -/

/-- What becomes of the sum and the count of a cell: kept in a run that goes on or where none is active, emptied, or raised
by a sample that leaves the count below the depth. -/
inductive SumsChange (s t : State) (h : Head) (w : Nat) : Prop
  | kept (run : SameRun s t ∨ s.learningOn h w = false) (sum : (t.cell h w).sum = (s.cell h w).sum)
      (count : (t.cell h w).count = (s.cell h w).count)
  | emptied (sum : (t.cell h w).sum = 0) (count : (t.cell h w).count = 0)
  | raised (run : SameRun s t) (r : HeldRecord) (ctx : RunCtx) (held : s.held = some r) (active : s.runs.active = some ctx)
      (on : s.learningOn h w = true) (sum : (t.cell h w).sum = (s.cell h w).sum + r.e)
      (count : (t.cell h w).count = (s.cell h w).count + 1) (depth : (s.cell h w).count + 1 < ctx.depth)

theorem benchWorking_sums (c : Cell) (m wc v) :
    (c.benchWorking m wc v).sum = c.sum ∧ (c.benchWorking m wc v).count = c.count
      ∨ (c.benchWorking m wc v).sum = 0 ∧ (c.benchWorking m wc v).count = 0 := by
  unfold Cell.benchWorking
  dsimp only
  split
  · exact .inr ⟨rfl, rfl⟩
  · exact .inl ⟨rfl, rfl⟩

/-- A data word keeps the sum and the count of its cell, or empties both (R11). -/
theorem dataWrite_sums (s : State) (p w) (c : Cell) :
    (s.dataWrite p w c).sum = c.sum ∧ (s.dataWrite p w c).count = c.count
      ∨ (s.dataWrite p w c).sum = 0 ∧ (s.dataWrite p w c).count = 0 := by
  unfold State.dataWrite
  dsimp only
  split
  · unfold Cell.benchPacked
    dsimp only
    split <;> exact benchWorking_sums _ _ _ _
  · split
    · exact benchWorking_sums _ _ _ _
    · exact .inl ⟨rfl, rfl⟩
    · unfold Cell.benchStatus Cell.writeState
      (repeat' split) <;> exact .inl ⟨rfl, rfl⟩

theorem resetLearn_sums (p : Permission) (c : Cell) : (c.resetLearn p).sum = c.sum ∧ (c.resetLearn p).count = c.count := by
  unfold Cell.resetLearn
  split <;> exact ⟨rfl, rfl⟩

theorem prepared_sums (r : Rev) (b : Bool) (p : Permission) (c : Cell) :
    (c.prepared r b p).sum = c.sum ∧ (c.prepared r b p).count = c.count := by
  unfold Cell.prepared
  cases b
  · exact ⟨rfl, rfl⟩
  · exact resetLearn_sums p c

theorem sweepCell_sums (s : State) (k h) (c : Cell) : (s.sweepCell k h c).sum = 0 ∧ (s.sweepCell k h c).count = 0 := by
  unfold State.sweepCell
  split <;> exact ⟨rfl, rfl⟩

theorem CellChange.sums {i : Instr} {s t : State} {h : Head} {w : Nat} (hc : CellChange i s t h w)
    (hoff : s.learningOn h w = false → (s.cell h w).sum = 0 ∧ (s.cell h w).count = 0) : SumsChange s t h w := by
  cases hc with
  | kept table run cell => exact .kept run (by rw [cell]) (by rw [cell])
  | sample instr table run r ctx f held released head wedge active on write cell =>
    subst head wedge
    cases write with
    | outlier hj => exact .kept (.inl run) (by rw [cell]; rfl) (by rw [cell]; rfl)
    | accumulate hj hd => exact .raised run r ctx held active on (by rw [cell]; rfl) (by rw [cell]; rfl) hd
    | update hj write cs => exact .emptied (by rw [cell]; rfl) (by rw [cell]; rfl)
  | data table run p v cell =>
    rcases dataWrite_sums s p v (s.cell h w) with ⟨hs, hn⟩ | ⟨hs, hn⟩
    · exact .kept (.inl run) (by rw [cell, hs]) (by rw [cell, hn])
    · exact .emptied (by rw [cell, hs]) (by rw [cell, hn])
  | unexcluded table run cell =>
    have hu : (s.cell h w).unexcluded.sum = (s.cell h w).sum ∧ (s.cell h w).unexcluded.count = (s.cell h w).count := by
      unfold Cell.unexcluded; split <;> exact ⟨rfl, rfl⟩
    exact .kept run (by rw [cell, hu.1]) (by rw [cell, hu.2])
  | excluded table run cell => exact .kept (.inl run) (by rw [cell]) (by rw [cell])
  | included table run cell => exact .kept (.inl run) (by rw [cell]; rfl) (by rw [cell]; rfl)
  | published instr table run r cell => exact .kept (.inl run) (by rw [cell]; rfl) (by rw [cell]; rfl)
  | prepared table off r reset perm cell =>
    have hp := prepared_sums r reset perm (s.cell h w)
    exact .emptied (by rw [cell, hp.1, (hoff off).1]) (by rw [cell, hp.2, (hoff off).2])
  | retried table run cs cell => exact .emptied (by rw [cell]; rfl) (by rw [cell]; rfl)
  | cleared table cell => exact .emptied (by rw [cell]; rfl) (by rw [cell]; rfl)
  | swept instr table run k sweep head wedge cell =>
    have hp := sweepCell_sums s k.kind h (s.cell h w)
    exact .emptied (by rw [cell, hp.1]) (by rw [cell, hp.2])
  | blank instr table cell => exact .emptied (by rw [cell]; rfl) (by rw [cell]; rfl)

/-! ### The outlier counts (R67) -/

theorem benchWorking_outliers (c : Cell) (m wc v) : (c.benchWorking m wc v).outliers = c.outliers := by
  unfold Cell.benchWorking; dsimp only; split <;> rfl

theorem dataWrite_outliers_le (s : State) (p w) (c : Cell) : (s.dataWrite p w c).outliers ≤ c.outliers := by
  unfold State.dataWrite
  dsimp only
  split
  · unfold Cell.benchPacked
    dsimp only
    split <;> exact (benchWorking_outliers _ _ _ _).le
  · split
    · exact (benchWorking_outliers _ _ _ _).le
    · exact le_rfl
    · unfold Cell.benchStatus Cell.writeState
      (repeat' split) <;> simp

theorem prepared_outliers (r : Rev) (b : Bool) (p : Permission) (c : Cell) : (c.prepared r b p).outliers = c.outliers := by
  unfold Cell.prepared Cell.resetLearn
  (repeat' split) <;> rfl

theorem sweepCell_outliers_le (s : State) (k h) (c : Cell) : (s.sweepCell k h c).outliers ≤ c.outliers := by
  unfold State.sweepCell
  split
  · exact le_rfl
  all_goals exact Nat.zero_le _

theorem CellChange.outliers {i : Instr} {s t : State} {h : Head} {w : Nat} (hc : CellChange i s t h w)
    (hs : (s.cell h w).outliers ≤ 15) : (t.cell h w).outliers ≤ 15 := by
  cases hc with
  | kept table run cell => rwa [cell]
  | sample instr table run r ctx f held released head wedge active on write cell =>
    rw [cell]
    cases write with
    | outlier hj => unfold Cell.countOutlier satInc; dsimp only; split <;> omega
    | accumulate hj hd => exact hs
    | update hj write cs => exact hs
  | data table run p v cell => rw [cell]; exact (dataWrite_outliers_le s p v _).trans hs
  | unexcluded table run cell => rw [cell, Cell.unexcluded]; split <;> exact hs
  | excluded table run cell => rwa [cell]
  | included table run cell => rw [cell]; exact hs
  | published instr table run r cell => rw [cell]; exact hs
  | prepared table off r reset perm cell => rwa [cell, prepared_outliers]
  | retried table run cs cell =>
    rw [cell]
    show (if _ then 0 else (s.cell h w).outliers) ≤ 15
    split
    · exact Nat.zero_le _
    · exact hs
  | cleared table cell => rw [cell]; exact hs
  | swept instr table run k sweep head wedge cell => rw [cell]; exact (sweepCell_outliers_le s k.kind h _).trans hs
  | blank instr table cell => rw [cell]; exact Nat.zero_le _

/-! ### The law of the counts -/

theorem depthLegal_pos {d : Nat} (h : depthLegal d) : 0 < d := by unfold depthLegal at h; omega

theorem Operation.runDepth {i : Instr} {s t : State} (ho : Operation i s t) (hs : s.CountLaw) {c : RunCtx}
    (hc : t.runs.active = some c) : depthLegal c.depth := by
  cases ho.runChange with
  | same shape =>
    rw [hc, Option.map_some] at shape
    obtain ⟨c', ha, he⟩ := Option.map_eq_some_iff.mp shape.symm
    rw [← ((RunCtx.shape_eq_iff c c').mp he).2.2]
    exact hs.runDepth c' ha
  | ended active => rw [active] at hc; cases hc
  | begun c' active depth => rw [active] at hc; cases hc; rw [depth]; exact hs.depth

theorem Operation.counts {i : Instr} {s t : State} (ho : Operation i s t) (hm : s.MapLaw) (hs : s.CountLaw) (h : Head)
    (w : Nat) : (t.cell h w).sum.natAbs ≤ 1023 * (t.cell h w).count
      ∧ (∀ c, t.runs.active = some c → t.learningOn h w = true → (t.cell h w).count < c.depth)
      ∧ (t.learningOn h w = false → (t.cell h w).count = 0) := by
  obtain ⟨hsum, hbelow, hoff⟩ := hs.counts h w
  have hzero (hl : s.learningOn h w = false) : (s.cell h w).sum = 0 ∧ (s.cell h w).count = 0 := by
    have hn := hoff hl
    rw [hn] at hsum
    exact ⟨by omega, hn⟩
  have emptied (hu : (t.cell h w).sum = 0) (hn : (t.cell h w).count = 0) : (t.cell h w).sum.natAbs ≤ 1023 * (t.cell h w).count
      ∧ (∀ c, t.runs.active = some c → t.learningOn h w = true → (t.cell h w).count < c.depth)
      ∧ (t.learningOn h w = false → (t.cell h w).count = 0) := by
    rw [hu, hn]
    exact ⟨by simp, fun c hc _ => depthLegal_pos (ho.runDepth hs hc), fun _ => rfl⟩
  cases (ho.cellChange hm h w).sums hzero with
  | kept run sum count =>
    rcases run with run | off
    · rw [sum, count, run.learningOn]
      refine ⟨hsum, fun c hc hl => ?_, hoff⟩
      obtain ⟨c', ha, -, -, hd⟩ := run.active hc
      rw [hd]; exact hbelow c' ha hl
    · exact emptied (sum.trans (hzero off).1) (count.trans (hzero off).2)
  | emptied sum count => exact emptied sum count
  | raised run r ctx held active on sum count depth =>
    have hr := hs.held r held
    rw [sum, count, run.learningOn, on]
    refine ⟨by omega, fun c hc _ => ?_, nofun⟩
    obtain ⟨c', ha, -, -, hd⟩ := run.active hc
    rw [active] at ha
    cases ha
    rwa [hd]

theorem Operation.countLaw {i : Instr} {s t : State} (ho : Operation i s t) (hm : s.MapLaw) (hs : s.CountLaw) : t.CountLaw where
  depth := ho.settingsRange.depth.elim (fun e => e ▸ hs.depth) id
  runDepth _ hc := ho.runDepth hs hc
  held _ hr := (ho.held hr).elim (hs.held _) id
  counts h w := ho.counts hm hs h w
  outliers h w := (ho.cellChange hm h w).outliers (hs.outliers h w)

/-- Settles O18: the sums of a cell are kept or emptied, or raised by one sample that does not reach the depth. -/
theorem stepKeepsCountLaw : Obligations.StepKeepsCountLaw := by
  unfold Obligations.StepKeepsCountLaw
  intro s t hm hs ht
  exact (step_keeps (P := fun s => s.MapLaw ∧ s.CountLaw) (fun _ _ h => ⟨{ h.1 with }, { h.2 with }⟩)
    (fun ho h => ⟨ho.mapLaw h.1, ho.countLaw h.1 h.2⟩) ⟨hm, hs⟩ ht).2

end Sys2Proof.Machine
end

section
/-! The ports and the steps that reach them (R19, R54, R57, R124, R129). -/

namespace Sys2Proof.Machine

open Relation (ReflTransGen)

theorem endRun_rev (s : State) (o : RunOutcome) (c : RunCause) : (s.endRun o c).index.rev = s.index.rev := by
  rcases endRun_cases s o c with ⟨-, he⟩ | ⟨ctx, -, he⟩ <;> rw [he]
  rw [State.conclude_index]

theorem LinkOp.rev {i : Instr} {s t : State} (ho : LinkOp i s t) : t.index.rev = s.index.rev := by
  cases ho
  case cmdSelfTest =>
    unfold State.cmdSelfTest
    simp [endRun_rev]
  case cmdUnitReset => unfold State.cmdUnitReset; split <;> rfl
  case cmdHaltRun =>
    rcases cmdHaltRun_cases s with ⟨o, f, he⟩ | ⟨ctx, -, he⟩ <;> rw [he]
    rfl
  case cmdFeedForwardOff =>
    rcases cmdFeedForwardOff_cases s with ⟨o, f, he⟩ | ⟨o, f, he⟩ | ⟨ctx, -, he⟩ <;> rw [he] <;> rfl
  all_goals simp

theorem LinkOp.frame {i : Instr} {s t : State} (ho : LinkOp i s t) : t.capture.frame = s.capture.frame := by
  cases ho
  case cmdSelfTest =>
    unfold State.cmdSelfTest
    simp
  case cmdUnitReset => unfold State.cmdUnitReset; split <;> rfl
  case cmdSetGeometry a b =>
    rcases cmdSetGeometry_cases s a b with ⟨o, f, he⟩ | ⟨-, -, he⟩
    · rw [he]
    · rw [he]; rfl
  all_goals simp

theorem LinkOp.ff {i : Instr} {s t : State} (ho : LinkOp i s t) : t.ff = s.ff := by
  cases ho
  all_goals simp

theorem Operation.rev {i : Instr} {s t : State} (ho : Operation i s t) (hi : i ≠ .indexEvent)
    (hp : ∀ x, i ≠ .powerOnReset x) : t.index.rev = s.index.rev := by
  cases ho
  case link hl => exact hl.rev
  case powerOn x => exact absurd rfl (hp x)
  case schedule | publishHead | advanceRev | runIndex | revolution => exact absurd rfl hi
  case startRun =>
    rcases startRun_cases s with he | ⟨d, rest, -, -, ⟨-, he⟩ | he⟩ <;> rw [he] <;> rfl
  case timerExpiry =>
    rcases timerExpiry_cases s with he | ⟨ctx, -, he⟩
    · rw [he]
    · rw [he]; rfl
  all_goals simp

theorem Operation.frame {i : Instr} {s t : State} (ho : Operation i s t) (hi : ∀ b w, i ≠ .captureWord b w)
    (hp : ∀ x, i ≠ .powerOnReset x) : t.capture.frame = s.capture.frame := by
  cases ho
  case link hl => exact hl.frame
  case powerOn x => exact absurd rfl (hp x)
  case captureWord b w => exact absurd rfl (hi b w)
  case takeRecord =>
    rcases takeRecord_cases s with he | ⟨r, rest, ⟨d, he⟩ | ⟨e, -, he⟩⟩ <;> rw [he] <;> rfl
  all_goals simp

theorem Operation.ff {i : Instr} {s t : State} (ho : Operation i s t) (hl : i.onLink = false) (h1 : ∀ w, i ≠ .ffRequest w)
    (h2 : i ≠ .ffOperation) (h3 : ∀ b, i ≠ .ffReplyStrobe b) (hp : ∀ x, i ≠ .powerOnReset x) : t.ff = s.ff := by
  cases ho
  case link h => exact h.ff
  case powerOn x => exact absurd rfl (hp x)
  case request w => exact absurd rfl (h1 w)
  case replyStrobe b => exact absurd rfl (h3 b)
  case reply hi => exact absurd hi (by simp [h2, hl])
  all_goals simp

/-- Along the operations of a step what each of them keeps is kept. -/
theorem operations_keep_eq {α : Type} {i : Instr} {f : State → α} (hop : ∀ {s t : State}, Operation i s t → f t = f s)
    {s t : State} (h : ReflTransGen (Operation i) s t) : f t = f s := by
  induction h with
  | refl => rfl
  | tail _ ho ih => exact (hop ho).trans ih

/-- Along the operations of the link what each of them keeps is kept. -/
theorem linkOps_keep_eq {α : Type} {i : Instr} {f : State → α} (hop : ∀ {s t : State}, LinkOp i s t → f t = f s)
    {s t : State} (h : ReflTransGen (LinkOp i) s t) : f t = f s := by
  induction h with
  | refl => rfl
  | tail _ ho ih => exact (hop ho).trans ih

theorem runIndex_rev (s : State) (r : Rev) : (s.runIndex r).index.rev = s.index.rev := by
  rcases runIndex_cases s r with ⟨-, he⟩ | ⟨ctx, c, -, -, -, he | he | ⟨o, g, he⟩ | he⟩ <;> rw [he] <;> rfl

theorem takeIndex_rev (s : State) : s.takeIndex.index.rev = s.index.rev + 1 := by
  rw [takeIndex_eq, State.raise_index, runIndex_rev]

/-- The reply of a step of the link is the one the Feed-Forward Server operation forms, or none (R19; log 5). -/
theorem ff_of_linkRun {i : Instr} {s t : State} (h : LinkRun i s t) : t.ff = s.ff ∨ t.ff = s.formReply.ff := by
  cases h with
  | unclaimed ops => exact .inl (linkOps_keep_eq (f := State.ff) LinkOp.ff ops)
  | claimed u hu ops =>
    have hc : u.claimsAhead.ff = u.formReply.ff := by unfold State.claimsAhead; simp
    exact .inr ((linkOps_keep_eq (f := State.ff) LinkOp.ff ops).trans (hc.trans hu.reply))

/-- With no request forming there is no reply to form (R129). -/
theorem formReply_of_not_forming {s : State} (h : ∀ q, s.ff.server ≠ .forming q) : s.formReply = s := by
  unfold State.formReply
  split
  · rfl
  · rfl
  · rename_i q hq; exact absurd hq (h q)

/-- Settles O19: operation by operation, with the claim granted in a step of the link apart. -/
theorem portsAreReachedByTheirOwnStepsAlone : Obligations.PortsAreReachedByTheirOwnStepsAlone := by
  unfold Obligations.PortsAreReachedByTheirOwnStepsAlone
  intro i s t _ he hp
  have hops := exec_operations he
  refine ⟨?_, fun hi => operations_keep_eq (f := fun s => s.capture.frame) (fun ho => ho.frame hi hp) hops, fun h1 h2 h3 => ?_⟩
  · split
    · rename_i hi
      subst hi
      cases he
      exact takeIndex_rev s
    · rename_i hi
      exact operations_keep_eq (f := fun s => s.index.rev) (fun ho => ho.rev hi hp) hops
  · cases hl : i.onLink with
    | false => exact .inl (operations_keep_eq (f := State.ff) (fun ho => ho.ff hl h1 h2 h3 hp) hops)
    | true =>
      rcases ff_of_linkRun (exec_linkRun hl he) with hff | hff
      · exact .inl hff
      · by_cases hq : ∃ q, s.ff.server = .forming q
        · obtain ⟨q, hq⟩ := hq
          exact .inr ⟨rfl, q, s.formReply, hq, rfl, hff⟩
        · rw [formReply_of_not_forming fun q h => hq ⟨q, h⟩] at hff
          exact .inl hff

end Sys2Proof.Machine
end

section
/-! Rules over every step about one cell: when a sample enters it (R63, R66), and when its published correction changes (R6). -/

namespace Sys2Proof.Machine

open Relation (ReflTransGen)

/-! ### Samples -/

/-- A sample with a stamp enters a cell: it is that of the record held, which is let go, and it is admitted. -/
inductive Sampled (i : Instr) (s t : State) (h : Head) (w : Nat) (x : Rev) : Prop
  | intro (instr : i = .learningOperation ∨ i.onLink = true) (r : HeldRecord) (ctx : RunCtx) (held : s.held = some r)
      (released : t.held = none) (active : s.runs.active = some ctx) (run : SameRun s t) (head : r.head = h)
      (wedge : r.wedge = w) (stamp : r.stamp = x)
      (admitted : judgeSample ctx s.settings.outlierLimit (s.cell h w) r = none)

/-- What an admitted sample says of its cell (R63). -/
theorem judgeSample_admitted {ctx : RunCtx} {n : Nat} {c : Cell} {r : HeldRecord} (h : judgeSample ctx n c r = none) :
    c.dirty = false ∧ earlier r.stamp c.effRev = false ∧ c.state ≠ .suspect ∧ c.state ≠ .excluded := by
  unfold judgeSample at h
  repeat' split at h
  all_goals simp_all

theorem dataWrite_lastStamp (s : State) (p w) (c : Cell) : (s.dataWrite p w c).lastStamp = c.lastStamp := by
  have hb (m wc v) : (c.benchWorking m wc v).lastStamp = c.lastStamp := by
    unfold Cell.benchWorking; dsimp only; split <;> rfl
  unfold State.dataWrite
  dsimp only
  split
  · unfold Cell.benchPacked
    dsimp only
    split <;> exact hb _ _ _
  · split
    · exact hb _ _ _
    · rfl
    · unfold Cell.benchStatus Cell.writeState
      (repeat' split) <;> rfl

theorem sweepCell_lastStamp (s : State) (k h) (c : Cell) :
    (s.sweepCell k h c).lastStamp = c.lastStamp ∨ (s.sweepCell k h c).lastStamp = none := by
  unfold State.sweepCell
  split
  · exact .inl rfl
  all_goals exact .inr rfl

/-- A sample alone brings a new stamp to a cell. -/
theorem CellChange.lastStamp {i : Instr} {s t : State} {h : Head} {w : Nat} {x : Rev} (hc : CellChange i s t h w)
    (ht : (t.cell h w).lastStamp = some x) (hs : (s.cell h w).lastStamp ≠ some x) : Sampled i s t h w x := by
  have same (e : (t.cell h w).lastStamp = (s.cell h w).lastStamp) : Sampled i s t h w x := absurd (e ▸ ht) hs
  have gone (e : (t.cell h w).lastStamp = none) : Sampled i s t h w x := absurd (e ▸ ht) nofun
  cases hc with
  | kept table run cell => exact same (by rw [cell])
  | sample instr table run r ctx f held released head wedge active on write cell =>
    subst head wedge
    cases write with
    | outlier hj => exact same (by rw [cell]; rfl)
    | accumulate hj hd =>
      rw [cell] at ht
      exact ⟨instr, r, ctx, held, released, active, run, rfl, rfl, Option.some.inj ht, hj⟩
    | update hj write cs =>
      rw [cell] at ht
      exact ⟨instr, r, ctx, held, released, active, run, rfl, rfl, Option.some.inj ht, hj⟩
  | data table run p v cell => exact same (by rw [cell, dataWrite_lastStamp])
  | unexcluded table run cell => exact same (by rw [cell, Cell.unexcluded]; split <;> rfl)
  | excluded table run cell => exact same (by rw [cell])
  | included table run cell => exact same (by rw [cell]; rfl)
  | published instr table run r cell => exact same (by rw [cell]; rfl)
  | prepared table off r reset perm cell => exact gone (by rw [cell]; rfl)
  | retried table run cs cell => exact same (by rw [cell]; rfl)
  | cleared table cell => exact same (by rw [cell]; rfl)
  | swept instr table run k sweep head wedge cell =>
    rcases sweepCell_lastStamp s k.kind h (s.cell h w) with e | e
    · exact same (by rw [cell, e])
    · exact gone (by rw [cell, e])
  | blank instr table cell => exact gone (by rw [cell]; rfl)

/-- An operation of the link keeps the record held, or leaves no run active. -/
theorem LinkOp.held {i : Instr} {s t : State} (ho : LinkOp i s t) : t.held = s.held ∨ t.runs.active = none := by
  cases ho
  case cmdUnitReset =>
    unfold State.cmdUnitReset
    split
    · exact .inl rfl
    · exact .inr rfl
  all_goals exact .inl (by simp)

/-- No operation of the link brings a stamp to a cell: none takes the record held with the run going on. -/
theorem LinkOp.lastStamp {i : Instr} {s t : State} (ho : LinkOp i s t) (hm : s.MapLaw) {h : Head} {w : Nat} {x : Rev}
    (ht : (t.cell h w).lastStamp = some x) : (s.cell h w).lastStamp = some x := by
  by_contra hs
  obtain ⟨-, r, ctx, held, released, active, run, -⟩ := (ho.cellChange hm h w).lastStamp ht hs
  rcases ho.held with he | hn
  · rw [he, held] at released; cases released
  · have hr := run.1
    rw [hn, active] at hr
    cases hr

theorem linkOps_lastStamp {i : Instr} {s t : State} (ops : ReflTransGen (LinkOp i) s t) (hm : s.MapLaw) {h : Head} {w : Nat}
    {x : Rev} (ht : (t.cell h w).lastStamp = some x) : (s.cell h w).lastStamp = some x := by
  induction ops with
  | refl => exact ht
  | tail hsu ho ih =>
    exact ih (ho.lastStamp (operations_keep Operation.mapLaw (operations_of_link hsu) hm) ht)

/-- Settles O21: a step that brings a stamp to a cell has granted a Learning Engine operation, and the cell is the one of the
record held. -/
theorem samplesEnterCleanCellsAlone : Obligations.SamplesEnterCleanCellsAlone := by
  unfold Obligations.SamplesEnterCleanCellsAlone
  intro i s t h w x _ hm he ht hs
  have main : ∃ u : State, u.held = s.held ∧ u.cell h w = s.cell h w ∧ ∃ v, Sampled i u v h w x := by
    cases hl : i.onLink with
    | false =>
      by_cases hi : i = .learningOperation
      · subst hi
        cases he
        exact ⟨s, rfl, rfl, _, (CellChange.learning hm (.inl rfl) h w).lastStamp ht hs⟩
      · have keep : t.MapLaw ∧ (t.cell h w).lastStamp ≠ some x :=
          operations_keep (P := fun u => u.MapLaw ∧ (u.cell h w).lastStamp ≠ some x)
            (fun ho hu => ⟨ho.mapLaw hu.1, fun hx => by
              obtain ⟨instr, -⟩ := (ho.cellChange hu.1 h w).lastStamp hx hu.2
              simp [hi, hl] at instr⟩) (exec_operations he) ⟨hm, hs⟩
        exact absurd ht keep.2
    | true =>
      cases exec_linkRun hl he with
      | unclaimed ops => exact absurd (linkOps_lastStamp ops hm ht) hs
      | claimed u hu ops =>
        have hmu : u.formReply.MapLaw :=
          Operation.mapLaw (.reply i u (.inr hl)) (operations_keep Operation.mapLaw (operations_of_link hu.ops) hm)
        have hcell : u.formReply.cell h w = s.cell h w := by
          rw [State.cell, State.cell, State.formReply_map, hu.map]
        have hg : (u.formReply.grantLearning.cell h w).lastStamp = some x :=
          linkOps_lastStamp ops (Operation.mapLaw (.learning i _ (.inr hl)) hmu) ht
        exact ⟨u.formReply, by rw [State.formReply_held, hu.held], hcell, _,
          (CellChange.learning hmu (.inr hl) h w).lastStamp hg (hcell ▸ hs)⟩
  obtain ⟨u, hheld, hcell, v, ⟨instr, r, ctx, held, -, -, -, head, wedge, stamp, admitted⟩⟩ := main
  subst stamp
  rw [hcell] at admitted
  exact ⟨instr, ⟨r, hheld ▸ held, head, wedge, rfl⟩, judgeSample_admitted admitted⟩

end Sys2Proof.Machine
end

section
/-! When a published correction can change, and to what (R6, R74, R197; log 29). -/

namespace Sys2Proof.Machine

open Relation (ReflTransGen)

/-! ### Publications -/

/-- A publication keeps the working correction, and writes it as the published one in the configured cells of its head. -/
theorem publishHead_corrections {s : State} (hm : mapWf s.map = true) (hw : s.settings.wedges ≤ Config.gridWedges) (d : DueHead)
    (h : Head) (w : Nat) :
    ((s.publishHead d).cell h w).working = (s.cell h w).working
      ∧ (((s.publishHead d).cell h w).published = (s.cell h w).published
        ∨ d.head = h ∧ h.val < s.settings.headsInstalled ∧ w < s.settings.wedges
          ∧ ((s.publishHead d).cell h w).published = (s.cell h w).working) := by
  rw [cell_publishHead hm hw]
  split
  · rename_i hc
    exact ⟨rfl, .inr ⟨hc.1.symm, hc.2.1, hc.2.2, rfl⟩⟩
  · exact ⟨rfl, .inl rfl⟩

/-- What publications leave of the corrections of a cell (R74, R75). -/
theorem publications_corrections (l : List DueHead) {s : State} (hm : mapWf s.map = true)
    (hw : s.settings.wedges ≤ Config.gridWedges) (h : Head) (w : Nat) :
    ((l.foldl State.publishHead s).cell h w).working = (s.cell h w).working
      ∧ (((l.foldl State.publishHead s).cell h w).published = (s.cell h w).published
        ∨ (∃ d ∈ l, d.head = h) ∧ h.val < s.settings.headsInstalled ∧ w < s.settings.wedges
          ∧ ((l.foldl State.publishHead s).cell h w).published = (s.cell h w).working) := by
  induction l generalizing s with
  | nil => exact ⟨rfl, .inl rfl⟩
  | cons d l ih =>
    obtain ⟨hwork, hpub⟩ := publishHead_corrections hm hw d h w
    obtain ⟨iwork, ipub⟩ := ih (s := s.publishHead d) (mapWf_publications [d] hm) (by simpa using hw)
    rw [State.publishHead_settings] at ipub
    rw [List.foldl_cons]
    refine ⟨iwork.trans hwork, ?_⟩
    rcases ipub with he | ⟨⟨e, hel, heh⟩, hi, hv, hp⟩
    · rcases hpub with he' | ⟨hd, hi, hv, hp⟩
      · exact .inl (he.trans he')
      · exact .inr ⟨⟨d, List.mem_cons_self, hd⟩, hi, hv, he.trans hp⟩
    · exact .inr ⟨⟨e, List.mem_cons_of_mem d hel, heh⟩, hi, hv, hp.trans hwork⟩

/-- What publications leave of the marks of a profile: they clear publish pending marks at most (R75). -/
theorem publications_marks (l : List DueHead) (s : State) (h : Head) :
    ((l.foldl State.publishHead s).profile h).autoPublish = (s.profile h).autoPublish
      ∧ ((l.foldl State.publishHead s).profile h).importFault = (s.profile h).importFault
      ∧ (((l.foldl State.publishHead s).profile h).publishPending = true → (s.profile h).publishPending = true) := by
  induction l generalizing s with
  | nil => exact ⟨rfl, rfl, id⟩
  | cons d l ih =>
    have hd : ((s.publishHead d).profile h).autoPublish = (s.profile h).autoPublish
        ∧ ((s.publishHead d).profile h).importFault = (s.profile h).importFault
        ∧ (((s.publishHead d).profile h).publishPending = true → (s.profile h).publishPending = true) := by
      unfold State.publishHead
      split
      · simp only [State.profile, PerHead.get_modify]
        split
        · rename_i e
          subst e
          exact ⟨rfl, rfl, fun hp => (Bool.and_eq_true_iff.mp hp).1⟩
        · exact ⟨rfl, rfl, id⟩
      · exact ⟨rfl, rfl, id⟩
    obtain ⟨ha, hf, hp⟩ := ih (s.publishHead d)
    exact ⟨ha.trans hd.1, hf.trans hd.2.1, fun hx => hd.2.2 (hp hx)⟩

/-- What the Publication Unit's part of an index leaves of a published correction. -/
theorem publications_published {s : State} (hm : s.MapLaw) (h : Head) (w : Nat) :
    (s.publications.cell h w).published = (s.cell h w).published
      ∨ h.val < s.settings.headsInstalled ∧ w < s.settings.wedges
        ∧ ((((s.profile h).autoPublish = true ∨ (s.profile h).publishPending = true) ∧ (s.profile h).importFault = false)
          ∨ ∃ d ∈ s.publishing, d.head = h)
        ∧ (s.publications.cell h w).published = (s.cell h w).working := by
  have h0 : ({ s with publishing := [] } : State).MapLaw := { hm with }
  have hm0 : mapWf s.publishAll.map = true := mapWf_publications s.publishing h0.canonical
  obtain ⟨awork, apub⟩ := publications_corrections s.publishing h0.canonical h0.geometry.2.2.2 h w
  change (s.publishAll.cell h w).working = (s.cell h w).working at awork
  change (s.publishAll.cell h w).published = (s.cell h w).published
    ∨ (∃ d ∈ s.publishing, d.head = h) ∧ h.val < s.settings.headsInstalled ∧ w < s.settings.wedges
      ∧ (s.publishAll.cell h w).published = (s.cell h w).working at apub
  have hset : s.publishAll.settings = s.settings := by simp
  let due := s.publishAll.dueHeads (s.index.rev + 1)
  let n := s.publishAll.publishAtOnce.headD due.length
  let s1 : State := { s.publishAll with publishing := due.drop n, publishAtOnce := s.publishAll.publishAtOnce.tail }
  have hw1 : s1.settings.wedges ≤ Config.gridWedges := by
    rw [show s1.settings = s.settings from hset]; exact hm.geometry.2.2.2
  obtain ⟨-, bpub⟩ := publications_corrections (due.take n) (s := s1) hm0 hw1 h w
  change (s.publications.cell h w).published = (s.publishAll.cell h w).published
    ∨ (∃ d ∈ due.take n, d.head = h) ∧ h.val < s.publishAll.settings.headsInstalled ∧ w < s.publishAll.settings.wedges
      ∧ (s.publications.cell h w).published = (s.publishAll.cell h w).working at bpub
  rw [hset] at bpub
  rcases bpub with he | ⟨⟨d, hd, hdh⟩, hi, hv, hp⟩
  · rcases apub with he' | ⟨hin, hi, hv, hp⟩
    · exact .inl (he.trans he')
    · exact .inr ⟨hi, hv, .inr hin, he.trans hp⟩
  · obtain ⟨k, hk, rfl⟩ := List.mem_map.mp (List.mem_of_mem_take hd)
    subst hdh
    obtain ⟨-, hmark, hfault⟩ := (due_iff _ k).mp (List.mem_filter.mp hk).2
    obtain ⟨ma, mf, mp⟩ := publications_marks s.publishing { s with publishing := [] } k
    exact .inr ⟨hi, hv, .inl ⟨hmark.imp (fun hx => ma ▸ hx) mp, mf ▸ hfault⟩, hp.trans awork⟩

/-! ### Operations -/

theorem dataWrite_published (s : State) (p w) (c : Cell) : (s.dataWrite p w c).published = c.published := by
  have hb (m wc v) : (c.benchWorking m wc v).published = c.published := by
    unfold Cell.benchWorking; dsimp only; split <;> rfl
  unfold State.dataWrite
  dsimp only
  split
  · unfold Cell.benchPacked
    dsimp only
    split <;> exact hb _ _ _
  · split
    · exact hb _ _ _
    · rfl
    · unfold Cell.benchStatus Cell.writeState
      (repeat' split) <;> rfl

theorem prepared_published (r : Rev) (b : Bool) (p : Permission) (c : Cell) : (c.prepared r b p).published = c.published := by
  unfold Cell.prepared Cell.resetLearn
  (repeat' split) <;> rfl

/-- A Fill leaves the published correction, every other sweep writes 0 (R24, R27). -/
theorem sweepCell_published (s : State) (k h) (c : Cell) :
    (s.sweepCell k h c).published = c.published ∨ (s.sweepCell k h c).published = 0 ∧ ∀ v l, k ≠ .fill v l := by
  cases k with
  | fill v l => exact .inl rfl
  | geometry | selfTest | powerOn => exact .inr ⟨rfl, nofun⟩

/-- What an operation does to a published correction. -/
inductive PublishedChange (i : Instr) (s t : State) (h : Head) (w : Nat) : Prop
  | kept (published : (t.cell h w).published = (s.cell h w).published)
  | index (instr : i = .indexEvent)
  | swept (instr : i = .sweepStep) (published : (t.cell h w).published = 0) (k : Sweep) (sweep : s.sweep = some k)
      (head : k.nextHead = h) (wedge : k.nextWedge = w) (kind : ∀ v l, k.kind ≠ .fill v l)
  | powerOn (x : Bool) (instr : i = .powerOnReset x)
  | memory (instr : WellFormed i = true → ∃ x, i = .selfTest x) (fault : s.startup.memoryFault = true)
      (published : (t.cell h w).published = 0)

theorem CellChange.published_change {i : Instr} {s t : State} {h : Head} {w : Nat} (hc : CellChange i s t h w) :
    PublishedChange i s t h w := by
  cases hc with
  | kept table run cell => exact .kept (by rw [cell])
  | sample instr table run r ctx f held released head wedge active on write cell =>
    cases write <;> exact .kept (by rw [cell]; rfl)
  | data table run p v cell => exact .kept (by rw [cell, dataWrite_published])
  | unexcluded table run cell => exact .kept (by rw [cell, Cell.unexcluded]; split <;> rfl)
  | excluded table run cell => exact .kept (by rw [cell])
  | included table run cell => exact .kept (by rw [cell]; rfl)
  | published instr table run r cell => exact .index instr
  | prepared table off r reset perm cell => exact .kept (by rw [cell, prepared_published])
  | retried table run cs cell => exact .kept (by rw [cell]; rfl)
  | cleared table cell => exact .kept (by rw [cell]; rfl)
  | swept instr table run k sweep head wedge cell =>
    rcases sweepCell_published s k.kind h (s.cell h w) with e | ⟨e, hk⟩
    · exact .kept (by rw [cell, e])
    · exact .swept instr (by rw [cell, e]) k sweep head wedge hk
  | blank instr table cell =>
    rcases instr with ⟨x, hx⟩ | ⟨hi, hf⟩
    · exact .powerOn x hx
    · exact .memory hi hf (by rw [cell]; rfl)

theorem LinkOp.memoryFault {i : Instr} {s t : State} (ho : LinkOp i s t) : t.startup.memoryFault = s.startup.memoryFault := by
  cases ho
  case cmdSelfTest =>
    unfold State.cmdSelfTest State.beginTest
    dsimp only
    rw [State.accept_startup]
    split <;> simp [Startup.watch]
  all_goals simp

/-- In a step of the link no operation touches the memory test's finding (R197). -/
theorem Operation.memoryFault {i : Instr} {s t : State} (ho : Operation i s t) (hl : i.onLink = true) :
    t.startup.memoryFault = s.startup.memoryFault := by
  cases ho
  case link h => exact h.memoryFault
  case reply => simp
  case learning => simp
  all_goals cases hl

theorem runIndex_published {s : State} (hm : s.MapLaw) (r : Rev) (h : Head) (w : Nat) :
    ((s.runIndex r).cell h w).published = (s.cell h w).published := by
  cases (CellChange.runIndex (i := .runStart) hm r h w).published_change with
  | kept published => exact published
  | index instr | swept instr | powerOn x instr => cases instr
  | memory instr => obtain ⟨x, hx⟩ := instr rfl; cases hx

theorem publications_operations (s : State) : ReflTransGen (Operation .indexEvent) s s.publications :=
  (((ReflTransGen.single (.schedule s [] s.publishAtOnce)).trans (operations_publications _ _)).tail (.schedule _ _ _)).trans
    (operations_publications _ _)

/-- At an index the Publication Unit alone changes published corrections (R56, R74). -/
theorem takeIndex_published {s : State} (hm : s.MapLaw) (h : Head) (w : Nat) :
    (s.takeIndex.cell h w).published = (s.publications.cell h w).published := by
  have hp : s.publications.MapLaw := operations_keep Operation.mapLaw (publications_operations s) hm
  have hruns : s.publications.runs = s.runs := by unfold State.publications; simp
  rw [takeIndex_eq, ← hruns]
  generalize (s.index.rev + 1 : Rev) = r
  let s1 : State := { s.publications with index :=
    { rev := r, timer := if s.publications.runs.active.isSome = true then some s.settings.indexTimeout else s.index.timer } }
  exact runIndex_published (s := s1) { hp with } r h w

/-- A step other than an index, a sweep step and power-on changes a published correction at a Self-Test alone. -/
theorem exec_published {i : Instr} {s t : State} (hwf : WellFormed i = true) (hm : s.MapLaw) (he : exec i s = .next t)
    (hindex : i ≠ .indexEvent) (hsweep : i ≠ .sweepStep) (hpower : ∀ x, i ≠ .powerOnReset x) (h : Head) (w : Nat) :
    (t.cell h w).published = (s.cell h w).published
      ∨ (∃ x, i = .selfTest x) ∧ s.startup.memoryFault = true ∧ (t.cell h w).published = 0 := by
  have hop {u v : State} (ho : Operation i u v)
      (hu : u.MapLaw ∧ (i.onLink = true → u.startup.memoryFault = s.startup.memoryFault)
        ∧ ((u.cell h w).published = (s.cell h w).published
          ∨ (∃ x, i = .selfTest x) ∧ s.startup.memoryFault = true ∧ (u.cell h w).published = 0)) :
      v.MapLaw ∧ (i.onLink = true → v.startup.memoryFault = s.startup.memoryFault)
        ∧ ((v.cell h w).published = (s.cell h w).published
          ∨ (∃ x, i = .selfTest x) ∧ s.startup.memoryFault = true ∧ (v.cell h w).published = 0) := by
    obtain ⟨hum, huf, hup⟩ := hu
    refine ⟨ho.mapLaw hum, fun hl => (ho.memoryFault hl).trans (huf hl), ?_⟩
    cases (ho.cellChange hum h w).published_change with
    | kept published => rwa [published]
    | index instr => exact absurd instr hindex
    | swept instr => exact absurd instr hsweep
    | powerOn x instr => exact absurd instr (hpower x)
    | memory instr fault published =>
      obtain ⟨x, rfl⟩ := instr hwf
      exact .inr ⟨⟨x, rfl⟩, huf rfl ▸ fault, published⟩
  exact (operations_keep hop (exec_operations he) ⟨hm, fun _ => rfl, .inl rfl⟩).2.2

/-- With no step waiting the publication next in turn is made, and no other (R74; log 29). -/
theorem publishNext_published {s : State} (hm : s.MapLaw) (h : Head) (w : Nat)
    (hne : (s.publishNext.cell h w).published ≠ (s.cell h w).published) :
    h.val < s.settings.headsInstalled ∧ w < s.settings.wedges ∧ (∃ d rest, s.publishing = d :: rest ∧ d.head = h)
      ∧ (s.publishNext.cell h w).published = (s.cell h w).working := by
  unfold State.publishNext at hne ⊢
  split at hne
  · exact absurd rfl hne
  · rename_i d rest hd
    rw [hd]
    obtain ⟨-, hp | ⟨hh, hi, hv, hp⟩⟩ :=
      publishHead_corrections (s := { s with publishing := rest }) hm.canonical hm.geometry.2.2.2 d h w
    · exact absurd hp hne
    · exact ⟨hi, hv, ⟨d, rest, rfl, hh⟩, hp⟩

/-- Settles O20: operation by operation, the index by its publications and a sweep step by the cell it writes. -/
theorem publishedCorrectionChanges : Obligations.PublishedCorrectionChanges := by
  unfold Obligations.PublishedCorrectionChanges
  refine ⟨fun i s t h w hwf hm he hne => ?_, fun s t h w hm hp ht hne => ?_⟩
  · by_cases hindex : i = .indexEvent
    · subst hindex
      cases he
      rw [takeIndex_published hm] at hne ⊢
      rcases publications_published hm h w with hk | ⟨hi, hv, hdue, hpub⟩
      · exact absurd hk hne
      · exact .inl ⟨rfl, hi, hv, hdue, hpub⟩
    by_cases hsweep : i = .sweepStep
    · subst hsweep
      cases he
      cases (CellChange.sweepStep hm h w).published_change with
      | kept published => exact absurd published hne
      | swept instr published k sweep head wedge kind => exact .inr (.inl ⟨rfl, published, k, sweep, head, wedge, kind⟩)
      | index instr | powerOn x instr => cases instr
      | memory instr => obtain ⟨x, hx⟩ := instr rfl; cases hx
    by_cases hpower : ∃ x, i = .powerOnReset x
    · exact .inr (.inr (.inl hpower))
    rcases exec_published hwf hm he hindex hsweep (fun x hx => hpower ⟨x, hx⟩) h w with hk | ⟨⟨x, hx⟩, hf, hz⟩
    · exact absurd hk hne
    · exact .inr (.inr (.inr ⟨x, hx, hf, hz⟩))
  · unfold step at ht
    rw [hp] at ht
    cases ht
    exact publishNext_published hm h w hne

end Sys2Proof.Machine
end

section
/-! The values and the laws at reset, what refuses a command before its own terms, and Set Geometry and Fill (R18, R27, R181,
R203). -/

namespace Sys2Proof.Machine

/-! ### Reset -/

theorem State.reset_cell (h : Head) (w : Nat) : State.reset.cell h w = Cell.blank := by
  simp [State.cell, State.reset]

theorem State.reset_profile (h : Head) : State.reset.profile h = {} := PerHead.get_all _ h

/-- Settles O3. -/
theorem resetValues : Obligations.ResetValues := by
  unfold Obligations.ResetValues
  refine ⟨State.reset_cell, State.reset_profile, rfl, rfl, rfl, rfl, rfl, rfl, rfl, rfl, rfl, rfl, rfl, fun h => ?_, rfl, rfl,
    rfl, rfl, rfl, rfl, rfl, rfl, fun k => ?_, rfl, rfl, rfl, rfl⟩
  · exact ⟨PerHead.get_all _ h, PerHead.get_all _ h, PerHead.get_all _ h⟩
  · cases k <;> exact ⟨rfl, rfl⟩

theorem State.reset_exclusionLaw : State.reset.ExclusionLaw := fun h w => by
  rw [State.reset_cell]; exact iff_of_false (by decide) List.not_mem_nil

theorem State.reset_correctionLaw : State.reset.CorrectionLaw where
  cmax := by decide
  cells h w := by rw [State.reset_cell]; exact ⟨withinRange_zero, withinRange_zero⟩
  offsets h := by rw [State.reset_profile]; exact withinRange_zero
  fills := nofun

theorem State.reset_gainLaw : State.reset.GainLaw := fun h => by
  rw [State.reset_profile]; exact ⟨by unfold gainLegal; decide, nofun⟩

theorem State.reset_queueLaw : State.reset.QueueLaw where
  frame := by decide
  fifo := by decide
  runs := by decide
  results := by decide
  words := by decide
  publications := .nil

theorem State.reset_runLaw : State.reset.RunLaw where
  active := nofun
  timer := rfl
  phase c hc := by
    rw [show State.reset.runs.active = none from rfl] at hc
    cases hc

theorem State.reset_countLaw : State.reset.CountLaw where
  depth := by unfold depthLegal; decide
  runDepth c hc := by
    rw [show State.reset.runs.active = none from rfl] at hc
    cases hc
  held := nofun
  counts h w := by
    rw [State.reset_cell]
    refine ⟨by decide, fun c hc => ?_, fun _ => rfl⟩
    rw [show State.reset.runs.active = none from rfl] at hc
    cases hc
  outliers h w := by rw [State.reset_cell]; exact Nat.zero_le _

/-- Settles O11, law by law. -/
theorem resetHasEveryLaw : Obligations.ResetHasEveryLaw :=
  ⟨State.reset_mapLaw, State.reset_exclusionLaw, State.reset_correctionLaw, State.reset_gainLaw, State.reset_queueLaw,
    State.reset_runLaw, State.reset_countLaw⟩

/-! ### Refusals before a command's own terms -/

/-- What judges a command before its own terms. -/
inductive JudgedAs (s : State) : CmdCode → State → Prop
  | null : JudgedAs s .null s.cmdNull
  | haltStream : JudgedAs s .haltStream s.cmdHaltStream
  | unitReset : JudgedAs s .unitReset s.cmdUnitReset
  | geometry (a b : Word) : JudgedAs s .setGeometry (s.cmdSetGeometry a b)
  | fill (a b : Word) : JudgedAs s .fill (s.cmdFill a b)
  | access (code : CmdCode) (own : State → State) : JudgedAs s code (s.judgedAccess own)
  | plain (code : CmdCode) (own : State → State) (hg : code ≠ .setGeometry) (hf : code ≠ .fill) (hw : code ≠ .writeMap)
      (hc : code ≠ .writeMapContinue) (hr : code ≠ .readMapItem) (hs : code ≠ .streamMap) : JudgedAs s code (s.judged own)

/-- Every command but Select Unit and Self-Test is judged before its own terms (R181). -/
theorem judgedAs_of_linkWords {i : Instr} {code : CmdCode} {ps : List Word} (hl : i.linkWords = some (code, ps))
    (hu : code ≠ .selectUnit) (ht : code ≠ .selfTest) (s : State) : JudgedAs s code (s.perform code ps) := by
  cases i <;> simp only [Instr.linkWords, reduceCtorEq, Option.some.injEq, Prod.mk.injEq] at hl <;> obtain ⟨rfl, rfl⟩ := hl
  case selectUnit => exact absurd rfl hu
  case selfTest => exact absurd rfl ht
  case null => exact .null
  case haltStream => exact .haltStream
  case unitReset => exact .unitReset
  case setGeometry a b => exact .geometry a b
  case fill a b => exact .fill a b
  case writeMap | writeMapContinue | readMapItem | streamMap =>
    unfold State.perform
    exact .access _ _
  all_goals
    unfold State.perform
    refine .plain _ _ ?_ ?_ ?_ ?_ ?_ ?_ <;> exact nofun

theorem judged_of_failed {s : State} (h : s.startup.unitState = .failed) (own : State → State) :
    s.judged own = s.refuse .notReady := if_pos h

theorem judged_of_streaming {s : State} (h : s.startup.unitState ≠ .failed) (hs : s.bench.stream.isSome = true)
    (own : State → State) : s.judged own = s.refuse .streaming := by
  rw [State.judged, if_neg h, if_pos hs]

theorem judged_of_no_stream {s : State} (h : s.startup.unitState ≠ .failed) (hs : s.bench.stream = none)
    (own : State → State) : s.judged own = own s := by
  rw [State.judged, if_neg h, if_neg (by simp [hs])]

/-- With no stream, windowed map access is refused Busy in a unit that is busy (R167, R170). -/
theorem judgedAccess_of_busy {s : State} (h : s.startup.unitState ≠ .failed) (hs : s.bench.stream = none) (hb : s.busy = true)
    (own : State → State) : s.judgedAccess own = s.refuse .busy := by
  rw [State.judgedAccess, judged_of_no_stream h hs, if_pos hb]

theorem JudgedAs.failed {s t : State} {code : CmdCode} (h : JudgedAs s code t) (hf : s.startup.unitState = .failed) :
    t = s.refuse .notReady := by
  cases h
  case null | haltStream | unitReset => exact if_pos hf
  all_goals exact judged_of_failed hf _

theorem JudgedAs.streaming {s t : State} {code : CmdCode} (h : JudgedAs s code t) (hf : s.startup.unitState ≠ .failed)
    (hs : s.bench.stream.isSome = true) (hn : code ≠ .null) (hh : code ≠ .haltStream) (hu : code ≠ .unitReset) :
    t = s.refuse .streaming := by
  cases h
  case null => exact absurd rfl hn
  case haltStream => exact absurd rfl hh
  case unitReset => exact absurd rfl hu
  all_goals exact judged_of_streaming hf hs _

theorem JudgedAs.starting {s t : State} {code : CmdCode} (h : JudgedAs s code t) (hs : s.startup.unitState = .starting)
    (hn : s.bench.stream = none) (hc : code = .setGeometry ∨ code = .fill ∨ code = .writeMap ∨ code = .writeMapContinue
      ∨ code = .readMapItem ∨ code = .streamMap) : t = s.refuse .busy := by
  have hf : s.startup.unitState ≠ .failed := by rw [hs]; exact nofun
  cases h
  case null | haltStream | unitReset => simp at hc
  case geometry a b => rw [State.cmdSetGeometry, judged_of_no_stream hf hn, if_pos hs]
  case fill a b => rw [State.cmdFill, judged_of_no_stream hf hn, if_pos hs]
  case access own => exact judgedAccess_of_busy hf hn (by simp [State.busy, hs]) own
  case plain => simp_all

theorem JudgedAs.sweeping {s t : State} {code : CmdCode} (h : JudgedAs s code t) (hf : s.startup.unitState ≠ .failed)
    (hn : s.bench.stream = none) (hk : s.sweep.isSome = true) (hc : code = .writeMap ∨ code = .writeMapContinue
      ∨ code = .readMapItem ∨ code = .streamMap) : t = s.refuse .busy := by
  cases h
  case null | haltStream | unitReset | geometry | fill => simp at hc
  case access own => exact judgedAccess_of_busy hf hn (by simp [State.busy, hk]) own
  case plain => simp_all

/-- Settles O26, by what judges each command before its own terms. -/
theorem refusalsBeforeOwnTerms : Obligations.RefusalsBeforeOwnTerms := by
  unfold Obligations.RefusalsBeforeOwnTerms
  intro s i code ps hl hu ht hsel ha hst
  rw [exec_of_selected hsel ha hst hl ht]
  have hj := judgedAs_of_linkWords hl hu ht s
  exact ⟨fun hf => congrArg _ (hj.failed hf), fun hf hs hn hh hr => congrArg _ (hj.streaming hf hs hn hh hr),
    fun hs hn hc => congrArg _ (hj.starting hs hn hc), fun hf hn hk hc => congrArg _ (hj.sweeping hf hn hk hc)⟩

/-! ### Set Geometry and Fill -/

theorem exec_setGeometry_of_open {s : State} (ho : s.LinkOpen) (hr : s.startup.unitState = .ready) (a b : Word) :
    exec (.setGeometry a b) s = .next
      (if a.toNat < 1 ∨ 8 < a.toNat ∨ b.toNat < 32 ∨ 512 < b.toNat then s.refuse .badParameter
        else if s.runs.active.isSome ∨ s.runs.queue ≠ [] then s.refuse .busy
        else if s.sweep.isSome then s.refuse .busy
        else (s.applyGeometry a.toNat b.toNat).accept) := by
  have hp : s.perform .setGeometry [a, b] = s.cmdSetGeometry a b := rfl
  rw [exec_of_open ho (i := .setGeometry a b) rfl nofun, hp, State.cmdSetGeometry, judged_of_open ho,
    if_neg (by rw [hr]; exact nofun)]

theorem exec_fill_of_open {s : State} (ho : s.LinkOpen) (hr : s.startup.unitState = .ready) (v st : Word) :
    exec (.fill v st) s = .next
      (if 1 < st.toNat then s.refuse .badParameter
        else if s.sweep.isSome then s.refuse .busy
        else if s.windowMeetsRun then s.refuse .busy
        else State.accept { s with sweep := some (s.fillSweep v st) }) := by
  have hp : s.perform .fill [v, st] = s.cmdFill v st := rfl
  rw [exec_of_open ho (i := .fill v st) rfl nofun, hp, State.cmdFill, judged_of_open ho,
    if_neg (by rw [hr]; exact nofun)]

/-- When the window meets a head of the active run (R27). -/
theorem windowMeetsRun_iff (s : State) : s.windowMeetsRun = true ↔ ∃ c h, s.runs.active = some c ∧ c.heads.get h = true
    ∧ s.bench.window.firstHead.val ≤ h.val ∧ h.val ≤ s.bench.window.lastHead.val := by
  unfold State.windowMeetsRun
  cases s.runs.active with
  | none => simp
  | some c => simp [mem_allHeads, and_assoc]

/-- The cells after an accepted Set Geometry (R18). -/
theorem cell_applyGeometry {s : State} (hm : s.MapLaw) (a b : Nat) (h : Head) (w : Nat) :
    (s.applyGeometry a b).cell h w =
      { s.cell h w with state := if (s.cell h w).state = .excluded then .empty else (s.cell h w).state } := by
  rw [cell_of_updateRows hm (State.applyGeometry_map s a b) (fun _ _ _ => rfl) h w, if_pos rfl, Cell.unexcluded]
  split <;> rfl

/-- Settles O58, in the order of the judgement. -/
theorem geometryAndFill : Obligations.GeometryAndFill := by
  unfold Obligations.GeometryAndFill
  intro s ho hr
  refine ⟨fun heads wedges => ?_, fun value state => ?_⟩
  · rw [exec_setGeometry_of_open ho hr]
    refine ⟨fun hbad => by rw [if_pos hbad], fun hgood hbusy => ?_, fun hgood hm hrun hq hk => ?_⟩
    · rw [if_neg hgood]
      by_cases hrun : s.runs.active.isSome = true ∨ s.runs.queue ≠ []
      · rw [if_pos hrun]
      · rw [if_neg hrun, if_pos (by tauto)]
    · rw [if_neg hgood, if_neg (by simp [hrun, hq]), if_neg (by simp [hk])]
      refine ⟨(s.applyGeometry heads.toNat wedges.toNat).map, (s.applyGeometry heads.toNat wedges.toNat).profiles, ?_,
        fun h w => cell_applyGeometry hm _ _ h w, fun h => ?_⟩
      · unfold State.applyGeometry State.emptyExclusions
        rfl
      · unfold State.applyGeometry
        exact PerHead.get_ofFn _ h
  · rw [exec_fill_of_open ho hr]
    dsimp only
    rw [← windowMeetsRun_iff]
    refine ⟨fun hst => by rw [if_pos (by omega)], fun hst hbusy => ?_, fun hst hk hmeets => ?_⟩
    · rw [if_neg (by omega)]
      by_cases hk : s.sweep.isSome = true
      · rw [if_pos hk]
      · rw [if_neg hk, if_pos (by tauto)]
    · rw [if_neg (by omega), if_neg (by simp [hk]), if_neg hmeets]
      rfl

end Sys2Proof.Machine
end

section
/-! The end of a GAIN run (R111, R117, R118). -/

namespace Sys2Proof.Machine

/-- The order in which two flags are set does not matter (R184). -/
theorem Kinds.add_comm (t : Kinds) (a b : Kind) : (t.add a).add b = (t.add b).add a := by
  cases a <;> cases b <;> rfl

/-- A result does not look at the link. -/
theorem resultOf_bench (s : State) (b : BenchLink) (ctx : RunCtx) (o c g) :
    State.resultOf { s with bench := b } ctx o c g = s.resultOf ctx o c g := rfl

/-- An event raised beside a conclusion may come before it. -/
theorem raise_conclude (s : State) (ctx : RunCtx) (o c g) (k : Kind) :
    (s.conclude ctx o c g).raise k = (s.raise k).conclude ctx o c g := by
  simp only [State.conclude, State.raise, resultOf_bench, Kinds.add_comm _ _ k]

/-- The state in which an index that finds a run active steps it, but for the Revolution flag (R56). -/
def State.indexed (s : State) : State :=
  { s.publications with index := { rev := s.index.rev + 1, timer := some s.settings.indexTimeout }, runs := s.runs }

/-- What an index does with no run taken as active tells what it publishes (R56, R74). -/
theorem exec_index_without_run (s : State) :
    ∃ u, exec .indexEvent { s with runs := { s.runs with active := none } } = .next u
      ∧ ({ u with runs := s.runs, index := { rev := s.index.rev + 1, timer := some s.settings.indexTimeout } } : State)
        = s.indexed.raise .revolution
      ∧ u.publishing = s.indexed.publishing ∧ u.profile = s.indexed.profile := by
  refine ⟨_, exec_index_of_no_run rfl, ?_, ?_, ?_⟩ <;> rw [publications_runs] <;> rfl

/-- An index pulse in MINUS_COLLECT (R56, R111). -/
theorem exec_index_of_minusCollect {s : State} {c : RunCtx} (hc : s.runs.active = some c) (hp : c.phase = .minusCollect) :
    exec .indexEvent s = .next ((s.indexed.minusIndex c).raise .revolution) := by
  have hr : s.indexed.runIndex (s.index.rev + 1) = s.indexed.minusIndex c := by
    have ha : s.indexed.runs.active = some c := hc
    rw [State.runIndex, ha]
    dsimp only
    rw [hp]
  rw [exec_index_of_run hc, ← hr]
  rfl

theorem takeGain_gainFound (d : DueHead) (g : GainResult) : d.takeGain g = { d with
    gainFound := d.gainFound && match g with
      | .gain _ => false
      | .none | .insufficient | .nonPositiveStep | .gainRange => true } := by
  cases g <;> simp [DueHead.takeGain]

theorem profile_takeGain_eq (p : Profile) (g : GainResult) : p.takeGain g = (match g with
    | .gain g => { p with pendingGain := some g }
    | .none | .insufficient | .nonPositiveStep | .gainRange => p) := by
  cases g <;> rfl

/-- Settles O34: the index is the publications, then the MINUS_COLLECT step, with the Revolution flag beside both. -/
theorem gainRunEnds : Obligations.GainRunEnds := by
  unfold Obligations.GainRunEnds
  intro s c hc hp
  obtain ⟨u, hu, hv, hpub, hprof⟩ := exec_index_without_run s
  refine ⟨u, hu, ?_⟩
  dsimp only
  have hset : s.indexed.settings = s.settings := by
    show s.publications.settings = s.settings
    unfold State.publications; simp
  rw [exec_index_of_minusCollect hc hp]
  refine ⟨fun hlt => ?_, fun hge => ?_⟩
  · have hm : s.indexed.minusIndex c = s.indexed.setRun c.countRev := if_pos hlt
    rw [hm]
    exact congrArg (fun t : State => Host.Outcome.next { t with runs := { s.runs with active := some c.countRev } }) hv.symm
  · have hm : s.indexed.minusIndex c = s.indexed.concludeGain c.countRev := if_neg (by simpa [RunCtx.countRev] using hge)
    refine ⟨s.indexed.gainResults c.countRev, updateProfiles s.indexed.profiles fun h p => p.takeGain
      ((s.indexed.gainResults c.countRev).get h), s.indexed.publishing.map fun d => d.takeGain
      ((s.indexed.gainResults c.countRev).get d.head), ?_, ?_, fun h => ⟨fun hh => ?_, fun hh => ?_, ?_⟩⟩
    · rw [hm, State.concludeGain, raise_conclude]
      exact congrArg (fun t : State => Host.Outcome.next (State.conclude
        { t with
          profiles := updateProfiles s.indexed.profiles fun h p => p.takeGain ((s.indexed.gainResults c.countRev).get h)
          publishing := s.indexed.publishing.map fun d => d.takeGain ((s.indexed.gainResults c.countRev).get d.head) }
        { c.countRev with injection := .off } .complete .none (s.indexed.gainResults c.countRev))) hv.symm
    · rw [hpub]
      exact List.map_congr_left fun d _ => takeGain_gainFound d _
    · rw [State.gainResults, PerHead.get_ofFn]
      exact if_neg (by rw [show c.countRev.heads = c.heads from rfl, hh]; exact nofun)
    · rw [State.gainResults, PerHead.get_ofFn, if_pos (show c.countRev.heads.get h = true from hh), hset, ← hprof]
      rfl
    · refine Eq.trans ?_ (profile_takeGain_eq (u.profile h) _)
      rw [hprof, updateProfiles, PerHead.get_ofFn]
      rfl

end Sys2Proof.Machine
end

section
/-! The granted sweep step (R24 to R28, R158, R198). -/

namespace Sys2Proof.Machine

/-- With no claim ahead of it waiting, a sweep step writes its cell, then moves or ends (R24). -/
theorem exec_sweepStep_of_granted {s : State} {k : Sweep} (hk : s.sweep = some k) (hf : ∀ q, s.ff.server ≠ .forming q)
    (hh : s.held = none) (hr : ∀ left crc, s.bench.stream ≠ some { kind := .map left crc, words := [] }) :
    exec .sweepStep s = .next (match k.advance with
      | some k' => { s.modifyCell k.nextHead k.nextWedge (s.sweepCell k.kind k.nextHead) with sweep := some k' }
      | none => (s.modifyCell k.nextHead k.nextWedge (s.sweepCell k.kind k.nextHead)).endSweep k) := by
  have hw : s.othersWaiting = false := by
    have hread : s.streamReadWaiting = false := by
      rw [Bool.eq_false_iff, ne_eq, streamReadWaiting_iff]
      exact fun ⟨l, c, h⟩ => hr l c h
    rw [State.othersWaiting, ffWaiting_of_not_forming hf, hh, hread]
    rfl
  show Host.Outcome.next s.sweepStep = _
  rw [State.sweepStep, hk]
  dsimp only
  rw [hw]
  cases k.advance <;> rfl

theorem advance_of_wedge {k : Sweep} (h : k.nextWedge < k.lastWedge) :
    k.advance = some { k with nextWedge := k.nextWedge + 1 } := if_pos h

theorem advance_of_head {k : Sweep} (h : k.nextWedge = k.lastWedge) (hh : k.nextHead.val < k.lastHead.val) :
    k.advance = some { k with nextHead := k.nextHead + 1, nextWedge := k.firstWedge } := by
  rw [Sweep.advance, if_neg (by omega), if_pos hh, headAfter_eq_succ]

theorem advance_of_last {k : Sweep} (h : k.nextWedge = k.lastWedge) (hh : k.nextHead = k.lastHead) : k.advance = none := by
  rw [Sweep.advance, if_neg (by omega), if_neg (by rw [hh]; omega)]

/-- The wedges of a head that a sweep covered (R28). -/
theorem covers_iff (k : Sweep) (wedges : Nat) (h : Head) : k.covers wedges h = true ↔
    k.firstHead.val ≤ h.val ∧ h.val ≤ k.lastHead.val ∧ k.firstWedge = 0 ∧ wedges ≤ k.lastWedge + 1 := by
  simp [Sweep.covers, and_assoc]

theorem pairSettled_iff (u : Startup) :
    u.pairSettled = true ↔ u.checkOpen = false ∧ (u.presence ≠ .present ∨ u.verdict ≠ .waiting) := by
  simp [Startup.pairSettled]

/-- The end of a Fill clears the import faults of the heads it covered (R28). -/
theorem endSweep_of_fill {s : State} {k : Sweep} {v : Int} {l : Bool} (hk : k.kind = .fill v l) :
    s.endSweep k = { s with
      sweep := none
      profiles := updateProfiles s.profiles fun h p =>
        if k.covers s.settings.wedges h then { p with importFault := false } else p } := by
  unfold State.endSweep
  rw [hk]

theorem endSweep_of_geometry {s : State} {k : Sweep} (hk : k.kind = .geometry) : s.endSweep k = { s with sweep := none } := by
  unfold State.endSweep
  rw [hk]

/-- The end of a sweep of a start-up test ends that phase, and the test where nothing of the pair is left (R198, R200). -/
theorem endSweep_of_test {s : State} {k : Sweep} (hk : k.kind = .selfTest ∨ k.kind = .powerOn) {own : MemoryResult}
    (hp : s.startup.phase = .sweeping own) :
    s.endSweep k = State.endTestIfDone { s with sweep := none, startup := { s.startup with phase := .swept own } } := by
  unfold State.endSweep
  rcases hk with hk | hk <;> rw [hk] <;> dsimp only <;> rw [hp]

theorem endTestIfDone_swept_eq {s : State} {own : MemoryResult} (hp : s.startup.phase = .swept own) :
    s.endTestIfDone = if s.startup.unitState = .starting ∧ s.startup.checkOpen = false
      ∧ (s.startup.presence ≠ .present ∨ s.startup.verdict ≠ .waiting) then s.finishTest own else s := by
  unfold State.endTestIfDone
  rw [hp]
  simp only [TestPhase.ended, pairSettled_iff]

/-- What a Fill leaves of a cell (R27, R158). -/
theorem sweepCell_fill (s : State) (h : Head) (v : Int) (l : Bool) (o : Cell) :
    s.sweepCell (.fill v l) h o = { o with
      working := if (s.perms.sweep.get h).wc then v else o.working
      dirty := o.dirty || ((s.perms.sweep.get h).wc && v != o.working)
      state := if (s.perms.sweep.get h).cs = true ∧ o.state ≠ .excluded then (if l then .loaded else .empty) else o.state
      sum := 0
      count := 0 } := by
  unfold State.sweepCell Cell.fill
  dsimp only
  congr 1
  · simp
  · cases (s.perms.sweep.get h).wc
    · simp
    · simp [bne, BEq.beq]

/-- What every other sweep leaves of a cell (R24, R25). -/
theorem sweepCell_of_not_fill (s : State) {k : SweepKind} (hk : ∀ v l, k ≠ .fill v l) (h : Head) (o : Cell) :
    s.sweepCell k h o = o.swept s.index.rev := by
  cases k with
  | fill v l => exact absurd rfl (hk v l)
  | geometry | selfTest | powerOn => rfl

/-- Settles O47: the cell written, then the move of the sweep or its end. -/
theorem sweepWrites : Obligations.SweepWrites := by
  unfold Obligations.SweepWrites
  intro s k hm hk hf hh hr
  let s1 := s.modifyCell k.nextHead k.nextWedge (s.sweepCell k.kind k.nextHead)
  have hcell := cell_of_modifyCellOf (t := s1) hm rfl
  have hnext : s1.cell k.nextHead k.nextWedge = s.sweepCell k.kind k.nextHead (s.cell k.nextHead k.nextWedge) := by
    rw [hcell, if_pos ⟨rfl, rfl⟩]
  rw [exec_sweepStep_of_granted hk hf hh hr]
  refine ⟨s1.map, fun h w hne => ?_, fun v l hfill => ?_, fun hfill => ?_, fun hw => ?_, fun hw hd => ?_, fun hw hd => ?_⟩
  · refine (hcell h w).trans (if_neg ?_)
    rintro ⟨rfl, rfl⟩
    simp at hne
  · exact hnext.trans (by rw [hfill, sweepCell_fill])
  · exact hnext.trans (sweepCell_of_not_fill s hfill _ _)
  · rw [advance_of_wedge hw]; rfl
  · rw [advance_of_head hw hd]; rfl
  · rw [advance_of_last hw hd]
    change (∀ v l, k.kind = .fill v l → ∃ ps, Host.Outcome.next (s1.endSweep k) = _ ∧ _)
      ∧ (k.kind = .geometry → Host.Outcome.next (s1.endSweep k) = _)
      ∧ (_ → ∀ own, _ → Host.Outcome.next (s1.endSweep k) = _)
    refine ⟨fun v l hfill => ?_, fun hg => ?_, fun ht own hp => ?_⟩
    · rw [endSweep_of_fill hfill]
      refine ⟨_, rfl, fun h => ?_⟩
      rw [updateProfiles, PerHead.get_ofFn]
      exact if_congr (covers_iff k s.settings.wedges h) rfl rfl
    · rw [endSweep_of_geometry hg]; rfl
    · rw [endSweep_of_test (s := s1) ht hp, endTestIfDone_swept_eq rfl]; rfl

end Sys2Proof.Machine
end

section
/-! Streams: how the Return Queue takes their words, and the commands and reads that start them (R108, R171, R172, R175). -/

namespace Sys2Proof.Machine

/-! ### Placing the words of a stream -/

theorem pump_of_none {s : State} (h : s.bench.stream = none) : s.pump = s := by
  unfold State.pump; rw [h]

section Placed
variable {s : State} {ws : List Word}

/-- A stream whose words all find room does by its kind what its last word brings (R171). -/
theorem pump_of_room (k : StreamKind) (hr : ws.length ≤ 4 - s.bench.returnQueue.length) :
    s.bench.stream = some { kind := k, words := ws } → s.pump = match k with
      | .copy => { s with bench := { s.bench with
          returnQueue := s.bench.returnQueue ++ ws.take (4 - s.bench.returnQueue.length), stream := none } }
      | .result => { s with
          bench := { s.bench with
            returnQueue := s.bench.returnQueue ++ ws.take (4 - s.bench.returnQueue.length), stream := none }
          runs := { s.runs with results := s.runs.results.tail } }
      | .map left crc =>
        if s.bench.itemsDone left then
          match crc with
          | none => { s with bench := { s.bench with
              returnQueue := s.bench.returnQueue ++ ws.take (4 - s.bench.returnQueue.length), stream := none } }
          | some r => { s with bench := BenchLink.placeCopy { s.bench with
              returnQueue := s.bench.returnQueue ++ ws.take (4 - s.bench.returnQueue.length) } (crcWords r) }
        else { s with bench := { s.bench with
          returnQueue := s.bench.returnQueue ++ ws.take (4 - s.bench.returnQueue.length)
          stream := some { kind := k, words := [] } } } := by
  intro hs
  unfold State.pump
  rw [hs]
  dsimp only
  rw [if_neg (by rw [(noRoomFor_eq_nil _ _).mpr hr]; exact not_not_intro rfl)]
  cases k with
  | copy => rfl
  | result => rfl
  | map left crc => cases crc <;> rfl

theorem itemsDone_iff (b : BenchLink) (left : Option Nat) : b.itemsDone left = true ↔ left = some 0 ∨ b.pointer = none := by
  simp [BenchLink.itemsDone]

/-- The CRC of a whole head that is streamed is placed as a copy of two words (R175). -/
theorem placeCopy_crcWords (b : BenchLink) (r : BitVec 32) :
    b.placeCopy (crcWords r) = { b with
      returnQueue := b.returnQueue ++ (crcWords r).take (4 - b.returnQueue.length)
      stream := if 4 - b.returnQueue.length < 2 then some { kind := .copy, words := (crcWords r).drop (4 - b.returnQueue.length) }
                else none } := by
  unfold BenchLink.placeCopy
  have hl : (crcWords r).length = 2 := rfl
  by_cases h : 4 - b.returnQueue.length < 2
  · rw [if_pos h, if_neg (by rw [noRoomFor_eq_nil, hl]; omega)]; rfl
  · rw [if_neg h, if_pos (by rw [noRoomFor_eq_nil, hl]; omega)]; rfl

/-- A Stream Map that has reads left waits for its next one (R172). -/
theorem pump_of_map_going {left : Option Nat} {crc : Option (BitVec 32)}
    (hs : s.bench.stream = some { kind := .map left crc, words := ws }) (hr : ws.length ≤ 4 - s.bench.returnQueue.length)
    (hl : left ≠ some 0) (hp : s.bench.pointer ≠ none) :
    s.pump = { s with bench := { s.bench with
      returnQueue := s.bench.returnQueue ++ ws.take (4 - s.bench.returnQueue.length)
      stream := some { kind := .map left crc, words := [] } } } := by
  rw [pump_of_room _ hr hs]
  dsimp only
  rw [if_neg (by rw [itemsDone_iff]; tauto)]

/-- A Stream Map with no read left places its CRC, if it streams a whole head, and ends (R172, R175). -/
theorem pump_of_map_done {left : Option Nat} (crc : Option (BitVec 32)) (hr : ws.length ≤ 4 - s.bench.returnQueue.length)
    (hd : left = some 0 ∨ s.bench.pointer = none) :
    s.bench.stream = some { kind := .map left crc, words := ws } → s.pump = match crc with
      | none => { s with bench := { s.bench with
          returnQueue := s.bench.returnQueue ++ ws.take (4 - s.bench.returnQueue.length), stream := none } }
      | some r => { s with bench := BenchLink.placeCopy { s.bench with
          returnQueue := s.bench.returnQueue ++ ws.take (4 - s.bench.returnQueue.length) } (crcWords r) } := by
  intro hs
  rw [pump_of_room _ hr hs]
  dsimp only
  exact if_pos ((itemsDone_iff _ _).mpr hd)

end Placed

/-! ### The commands that start a stream -/

/-- A stream read at a pointer takes the item there, and the pointer moves on (R172). -/
theorem readStreamItem_of_pointer {s : State} {p : Pointer} (hp : s.bench.pointer = some p) (left : Option Nat)
    (crc : Option (BitVec 32)) :
    s.readStreamItem left crc = State.pump { s with bench := { s.bench with
      pointer := advancePointer s.bench.window s.bench.order p
      stream := some { kind := .map (left.map fun n => n - 1) (crc.map fun r => (s.itemAt p).foldl crcWord r)
                       words := s.itemAt p } } } := by
  unfold State.readStreamItem
  rw [hp]

/-- A read that a Stream Map has claimed is completed (R172). -/
theorem completeStreamRead_of_read {s : State} {left : Option Nat} {crc : Option (BitVec 32)}
    (hs : s.bench.stream = some { kind := .map left crc, words := [] }) : s.completeStreamRead = s.readStreamItem left crc := by
  unfold State.completeStreamRead
  rw [hs]

/-- Whether a window is one whole head in Packed view, walked upwards (R175, R176). -/
theorem wholeHead_eq (s : State) : s.wholeHead = (s.bench.order.packed && !s.bench.order.descending
    && s.bench.window.firstHead == s.bench.window.lastHead && s.bench.window.firstWedge == 0
    && s.bench.window.lastWedge + 1 == s.settings.wedges) := by
  rw [Bool.eq_iff_iff]
  simp [State.wholeHead]
  tauto

/-- A whole head is streamed with its CRC from its first cell (R175). -/
theorem isExport_eq {s : State} {p : Pointer} (hp : s.bench.pointer = some p) (n : Word) :
    s.isExport n = (s.bench.order.packed && !s.bench.order.descending
      && s.bench.window.firstHead == s.bench.window.lastHead && s.bench.window.firstWedge == 0
      && s.bench.window.lastWedge + 1 == s.settings.wedges
      && p == { head := s.bench.window.firstHead, wedge := 0, pos := 0 }
      && (n == 0 || decide (s.settings.wedges ≤ n.toNat))) := by
  rw [State.isExport, wholeHead_eq, hp, Bool.eq_iff_iff]
  simp only [Bool.and_eq_true, Bool.or_eq_true, decide_eq_true_eq, beq_iff_eq, windowStart, Option.some.injEq,
    Bool.not_eq_true']
  constructor
  · rintro ⟨⟨⟨⟨⟨⟨a, b⟩, c⟩, d⟩, e⟩, f⟩, g⟩
    rw [b, d] at f
    exact ⟨⟨⟨⟨⟨⟨a, b⟩, c⟩, d⟩, e⟩, f⟩, g⟩
  · rintro ⟨⟨⟨⟨⟨⟨a, b⟩, c⟩, d⟩, e⟩, f⟩, g⟩
    refine ⟨⟨⟨⟨⟨⟨a, b⟩, c⟩, d⟩, e⟩, ?_⟩, g⟩
    rw [b, d]
    exact f

/-- Windowed map access in its open circumstances (R167, R170). -/
theorem exec_access_of_open {s : State} (ho : s.MapOpen) {i : Instr} {code : CmdCode} {ps : List Word}
    (hl : i.linkWords = some (code, ps)) (hc : code ≠ .selfTest) {own : State → State}
    (hp : s.perform code ps = s.judgedAccess own) : exec i s = .next (own s) := by
  rw [exec_of_open ho.link hl hc, hp, judgedAccess_of_open ho]

/-- The first read of a Stream Map, after the claims ahead (R172; log 5). -/
theorem exec_streamMap_of_open {s : State} (ho : s.MapOpen) (n : Word) : exec (.streamMap n) s = .next
    (if s.bench.pointer.isNone then s.refuse .notFound
      else s.claimsAhead.accept.readStreamItem (if n = 0 then none else some n.toNat)
        (if s.isExport n then some crcStart else none)) :=
  exec_access_of_open ho (i := .streamMap n) (code := .streamMap) (ps := [n]) rfl nofun
    (show s.cmdStreamMap n = _ from rfl)

theorem exec_takeResult_of_open {s : State} (ho : s.LinkOpen) : exec .takeResult s = .next s.cmdTakeResult :=
  exec_of_open ho (i := .takeResult) (code := .takeResult) (ps := []) rfl nofun

/-- Settles O53: the placing of a stream's words by its kind, then the steps that start one or read on. -/
theorem streamsPlaceTheirWords : Obligations.StreamsPlaceTheirWords := by
  unfold Obligations.StreamsPlaceTheirWords
  intro s
  refine ⟨fun k ws hs => ⟨fun hr => pump_of_full hs hr, fun hr => ⟨?_, ?_, ?_⟩⟩, pump_of_none,
    fun ho => ⟨fun he => ?_, fun r rest he => ?_⟩,
    fun ho n => ⟨fun hp => ?_, fun p hp => ?_⟩, fun left crc p hs hp hf hh => ?_⟩
  · rintro rfl; exact pump_of_room _ hr hs
  · rintro rfl; exact pump_of_room _ hr hs
  · rintro left crc rfl
    refine ⟨pump_of_map_going hs hr, fun hd => ⟨?_, ?_⟩⟩
    · rintro rfl; exact pump_of_map_done _ hr hd hs
    · rintro r rfl
      rw [pump_of_map_done _ hr hd hs]
      dsimp only
      rw [placeCopy_crcWords]
  · rw [exec_takeResult_of_open ho, State.cmdTakeResult, judged_of_open ho, he]
  · rw [exec_takeResult_of_open ho, State.cmdTakeResult, judged_of_open ho, he]
    rfl
  · rw [exec_streamMap_of_open ho, hp]; rfl
  · refine ⟨s.claimsAhead, execAll_claims s, ?_⟩
    have hb : s.claimsAhead.accept.bench.pointer = some p := by simpa using hp
    rw [exec_streamMap_of_open ho, if_neg (by simp [hp]), readStreamItem_of_pointer hb, isExport_eq hp]
    dsimp only
    have hleft : (if n = 0 then none else some n.toNat).map (fun n => n - 1) = if n = 0 then none else some (n.toNat - 1) := by
      split <;> rfl
    have hcrc (b : Bool) (ws : List Word) : (if b = true then some crcStart else none).map (fun r => ws.foldl crcWord r)
        = if b = true then some (ws.foldl crcWord crcStart) else none := by
      cases b <;> rfl
    rw [hleft, hcrc, ← State.claimsAhead_bench s]
    rfl
  · show Host.Outcome.next s.grantStreamRead = _
    rw [State.grantStreamRead, if_neg (by simp [ffWaiting_of_not_forming hf, hh]), completeStreamRead_of_read hs,
      readStreamItem_of_pointer hp]

end Sys2Proof.Machine
end

section
/-! The walk of the window and the commands of windowed map access (R159 to R161, R167, R168, R170, R176). -/

namespace Sys2Proof.Machine

/-! ### The walk of the window (R161) -/

/-- A step of the wedge inside the window is blocked at the last wedge of the direction alone. -/
theorem stepWedge_eq (win : Window) (ord : Order) {w : Nat} (h1 : win.firstWedge ≤ w) (h2 : w ≤ win.lastWedge) :
    stepWedge win ord w = if w ≠ (if ord.descending then win.firstWedge else win.lastWedge)
      then some (if ord.descending then w - 1 else w + 1) else none := by
  unfold stepWedge
  cases ord.descending with
  | true =>
    simp only [if_true]
    by_cases h : w = win.firstWedge
    · rw [if_neg (by omega), if_neg (by simpa using h)]
    · rw [if_pos (by omega), if_pos h]
  | false =>
    simp only [Bool.false_eq_true, if_false]
    by_cases h : w = win.lastWedge
    · rw [if_neg (by omega), if_neg (by simpa using h)]
    · rw [if_pos (by omega), if_pos h]

/-- The walk of the window, item by item. -/
theorem advancePointer_eq {win : Window} (ord : Order) {p : Pointer} (h : p.within win) :
    advancePointer win ord p =
      if ord.headMajor then
        (if p.head ≠ win.lastHead then some { head := p.head + 1, wedge := p.wedge, pos := 0 }
          else if p.wedge ≠ (if ord.descending then win.firstWedge else win.lastWedge)
            then some { head := win.firstHead, wedge := if ord.descending then p.wedge - 1 else p.wedge + 1, pos := 0 } else none)
      else
        (if p.wedge ≠ (if ord.descending then win.firstWedge else win.lastWedge)
          then some { head := p.head, wedge := if ord.descending then p.wedge - 1 else p.wedge + 1, pos := 0 }
          else if p.head ≠ win.lastHead
            then some { head := p.head + 1, wedge := if ord.descending then win.lastWedge else win.firstWedge, pos := 0 }
          else none) := by
  obtain ⟨-, hl, wf, wl, -⟩ := h
  have hhead : p.head.val < win.lastHead.val ↔ p.head ≠ win.lastHead := by
    rw [ne_eq, Fin.ext_iff]; omega
  unfold advancePointer
  dsimp only
  rw [stepWedge_eq win ord wf wl, headAfter_eq_succ]
  simp only [hhead]
  by_cases hw : p.wedge ≠ (if ord.descending then win.firstWedge else win.lastWedge)
  · simp only [if_pos hw, Option.map_some]
  · simp only [if_neg hw, Option.map_none]

/-! ### The commands -/

theorem exec_setWindow_of_open {s : State} (ho : s.LinkOpen) (a b c d : Word) : exec (.setWindow a b c d) s = .next
    (let win := windowOf s.settings a b c d
      if win.lastHead.val < win.firstHead.val ∨ win.lastWedge < win.firstWedge then s.refuse .badParameter
      else State.accept { s with bench := BenchLink.resetPointer { s.bench with window := win } }) := by
  have hp : s.perform .setWindow [a, b, c, d] = s.cmdSetWindow a b c d := rfl
  rw [exec_of_open ho (i := .setWindow a b c d) rfl nofun, hp, State.cmdSetWindow, judged_of_open ho]

theorem exec_setAccessOrder_of_open {s : State} (ho : s.LinkOpen) (a b c : Word) : exec (.setAccessOrder a b c) s = .next
    (if 1 < a.toNat ∨ 1 < b.toNat ∨ 1 < c.toNat then s.refuse .badParameter
      else State.accept { s with bench := BenchLink.resetPointer { s.bench with
        order := { headMajor := decide (a = 1), descending := decide (b = 1), packed := decide (c = 1) } } }) := by
  have hp : s.perform .setAccessOrder [a, b, c] = s.cmdSetAccessOrder a b c := rfl
  rw [exec_of_open ho (i := .setAccessOrder a b c) rfl nofun, hp, State.cmdSetAccessOrder, judged_of_open ho]

theorem exec_writeMap_of_open {s : State} (ho : s.MapOpen) : exec .writeMap s = .next
    (State.accept { s with bench := { s.bench.resetPointer with assembly := .takingData s.importOf } }) :=
  exec_access_of_open ho (i := .writeMap) (code := .writeMap) (ps := []) rfl nofun (show s.cmdWriteMap = _ from rfl)

theorem exec_writeMapContinue_of_open {s : State} (ho : s.MapOpen) : exec .writeMapContinue s = .next
    (State.accept { s with bench := { s.bench with assembly := .takingData none } }) :=
  exec_access_of_open ho (i := .writeMapContinue) (code := .writeMapContinue) (ps := []) rfl nofun
    (show s.cmdWriteMapContinue = _ from rfl)

/-- The read of Read Map Item, after the claims ahead (R170; log 5). -/
theorem exec_readMapItem_of_none {s : State} (ho : s.MapOpen) (hp : s.bench.pointer = none) :
    exec .readMapItem s = .next (s.refuse .notFound) := by
  have hc : s.perform .readMapItem [] = s.cmdReadMapItem := rfl
  rw [exec_of_open ho.link (i := .readMapItem) rfl nofun, hc, State.cmdReadMapItem, judgedAccess_of_open ho, hp]

theorem exec_readMapItem_of_pointer {s : State} (ho : s.MapOpen) {p : Pointer} (hp : s.bench.pointer = some p) :
    exec .readMapItem s = .next (s.claimsAhead.placeItem p) := by
  have hc : s.perform .readMapItem [] = s.cmdReadMapItem := rfl
  rw [exec_of_open ho.link (i := .readMapItem) rfl nofun, hc, State.cmdReadMapItem, judgedAccess_of_open ho, hp]

/-- An item placed at once, with the words that find no room lost (R170). -/
theorem placeItem_eq (s : State) (p : Pointer) : s.placeItem p = { s with bench := { s.bench with
    returnQueue := s.bench.returnQueue ++ (s.itemAt p).take (4 - s.bench.returnQueue.length)
    pointer := advancePointer s.bench.window s.bench.order p
    flags := if 4 - s.bench.returnQueue.length < (s.itemAt p).length then { s.bench.flags with returnLost := true }
      else s.bench.flags
    lastOutcome := .accepted } } := by
  unfold State.placeItem
  dsimp only
  by_cases h : 4 - s.bench.returnQueue.length < (s.itemAt p).length
  · rw [if_neg (by rw [noRoomFor_eq_nil]; omega), if_pos h]; rfl
  · rw [if_pos (by rw [noRoomFor_eq_nil]; omega), if_neg h]; rfl

/-- Settles O57: the walk, then command by command. -/
theorem mapAccessCommands : Obligations.MapAccessCommands := by
  unfold Obligations.MapAccessCommands
  refine ⟨fun win ord p h => advancePointer_eq ord h, fun s ho hg a b c d => ?_, fun s ho a b c => ?_,
    fun s ho => ⟨?_, exec_writeMapContinue_of_open ho, exec_readMapItem_of_none ho, fun p hp => ?_⟩⟩
  · have hval (x : Word) : (Fin.ofNat 8 (min x.toNat (s.settings.headsInstalled - 1))).val
        = min x.toNat (s.settings.headsInstalled - 1) := by
      have := hg.2.1
      simp only [Fin.ofNat]; omega
    rw [exec_setWindow_of_open ho]
    simp only [windowOf, hval]
    split <;> rfl
  · rw [exec_setAccessOrder_of_open ho]
    have hpos (x : Word) : 1 < x.toNat ↔ 2 ≤ x.toNat := Iff.rfl
    simp only [hpos]
    split
    · rfl
    · simp [BenchLink.resetPointer, windowStart, State.accept, BEq.beq]
  · rw [exec_writeMap_of_open ho, State.importOf, wholeHead_eq]
    rfl
  · refine ⟨s.claimsAhead, execAll_claims s, ?_⟩
    rw [exec_readMapItem_of_pointer ho hp, placeItem_eq, ← State.claimsAhead_bench s]

end Sys2Proof.Machine
end

section
/-! Data words written at the pointer, and the words of a whole-head import (R165, R166, R169, R176). -/

namespace Sys2Proof.Machine

/-- The states that a status word names (12.7). -/
theorem ofStatus_eq (w : Word) : CellState.ofStatus w
    = [CellState.empty, .loaded, .learning, .converged, .suspect][w.toNat % 8]? := by
  have hf : field w 0 3 = w.toNat % 8 := by simp [field]
  have hk : w.toNat % 8 < 8 := Nat.mod_lt _ (by decide)
  unfold CellState.ofStatus
  rw [hf]
  generalize w.toNat % 8 = k at hk
  interval_cases k <;> rfl

/-- A data word written as a working correction (R165). -/
theorem benchWorking_eq (m : Nat) (wc : Bool) (v : Int) (o : Cell) : o.benchWorking m wc v =
    if wc = true ∧ max (-(m : Int)) (min m v) ≠ o.working
    then { o with working := max (-(m : Int)) (min m v), dirty := true, sum := 0, count := 0 } else o := by
  unfold Cell.benchWorking
  dsimp only
  rw [show clampCorr m v = max (-(m : Int)) (min m v) from rfl]
  exact if_congr (by simp) rfl rfl

/-- A Packed view data word (R165). -/
theorem dataWrite_packed {s : State} (hp : s.bench.order.packed = true) (p : Pointer) (w : Word) (o : Cell) :
    s.dataWrite p w o =
      if (s.perms.bench.get p.head).cs = true ∧ o.state = .empty
      then { o.benchWorking s.settings.cmax (s.perms.bench.get p.head).wc w.toInt with state := .loaded }
      else o.benchWorking s.settings.cmax (s.perms.bench.get p.head).wc w.toInt := by
  unfold State.dataWrite
  dsimp only
  rw [if_pos hp, Cell.benchPacked, benchWorking_state]
  exact if_congr (by simp) rfl rfl

section Record
variable {s : State} (hr : s.bench.order.packed = false) {p : Pointer} (w : Word) (o : Cell)
include hr

/-- The first word of a Record item writes the correction (R166). -/
theorem dataWrite_record_correction (hp : p.pos = 0) :
    s.dataWrite p w o = o.benchWorking s.settings.cmax (s.perms.bench.get p.head).wc w.toInt := by
  unfold State.dataWrite
  dsimp only
  rw [if_neg (by rw [hr]; exact nofun), hp]
  rfl

/-- The second word of a Record item writes nothing (R166). -/
theorem dataWrite_record_published (hp : p.pos = 1) : s.dataWrite p w o = o := by
  unfold State.dataWrite
  dsimp only
  rw [if_neg (by rw [hr]; exact nofun), hp]
  rfl

/-- The third word of a Record item writes the state and the outlier count by CS (R166). -/
theorem dataWrite_record_status (hp : p.pos = 2) : s.dataWrite p w o = o.benchStatus (s.perms.bench.get p.head).cs w := by
  unfold State.dataWrite
  dsimp only
  rw [if_neg (by rw [hr]; exact nofun), hp]
  rfl

end Record

/-- A status word that is not taken writes nothing (R166). -/
theorem benchStatus_of_not_taken {cs : Bool} {w : Word} (h : cs = false ∨ 5 ≤ w.toNat % 8) (o : Cell) :
    o.benchStatus cs w = o := by
  unfold Cell.benchStatus
  rw [ofStatus_eq]
  split
  · rfl
  · rename_i st hst
    rcases h with rfl | h
    · rfl
    · rw [List.getElem?_eq_none (by simpa using h)] at hst
      cases hst

/-- A status word that is taken (R166, R169). -/
theorem benchStatus_of_taken {cs : Bool} {w : Word} {st : CellState} (hc : cs = true)
    (hst : [CellState.empty, .loaded, .learning, .converged, .suspect][w.toNat % 8]? = some st) (o : Cell) :
    o.benchStatus cs w = { o with
      state := if o.state = .excluded then .excluded else st
      outliers := if st = .suspect then o.outliers else 0 } := by
  have hw : o.writeState st = { o with state := if o.state = .excluded then .excluded else st } := by
    unfold Cell.writeState
    split
    · rename_i h; rw [← h]
    · rfl
  unfold Cell.benchStatus
  rw [ofStatus_eq, hst, hc]
  dsimp only
  rw [hw, if_pos rfl]
  split <;> rfl

/-! ### The step of a data word -/

/-- A data word of the unit selected goes to the Write Map that takes data (R178, R180). -/
theorem exec_mapDataWord_of_takingData {s : State} (hsel : s.bench.selected = s.startup.unitNo) (hst : s.bench.stream = none)
    {imp : Option Import} (ha : s.bench.assembly = .takingData imp) (w : Word) :
    exec (.mapDataWord w) s = .next (s.dataWord imp w) := by
  have ht : s.takeClaimedRead = s := takeClaimedRead_of_no_read (by rw [hst]; exact nofun)
  show Host.Outcome.next (s.parameterWord w) = _
  unfold State.parameterWord
  rw [if_pos (by simp [State.isSelected, hsel]), ht]
  dsimp only
  rw [ha]

/-- The pointer lies on a configured cell (R159, R161). -/
theorem configured_of_pointer {s : State} (hm : s.MapLaw) {p : Pointer} (hp : s.bench.pointer = some p) :
    s.configured p.head p.wedge = true := by
  obtain ⟨-, hl, -, wl, -⟩ := hm.pointer p hp
  obtain ⟨-, wh, -, ww⟩ := hm.window
  simp only [State.configured, Bool.and_eq_true, decide_eq_true_eq]
  omega

/-- The pointer after a data word (R161, R166). -/
theorem afterData_eq {b : BenchLink} {p : Pointer} (hp : p.pos ≤ 2) : b.afterData p =
    if b.order.packed = true ∨ p.pos = 2 then advancePointer b.window b.order p else some { p with pos := p.pos + 1 } := by
  unfold BenchLink.afterData
  have hpos : 2 ≤ p.pos ↔ p.pos = 2 := by omega
  exact if_congr (by simp [hpos]) rfl rfl

theorem claimsAhead_mapLaw {s : State} (hm : s.MapLaw) : s.claimsAhead.MapLaw :=
  Operation.mapLaw (.learning .learningOperation _ (.inl rfl)) (Operation.mapLaw (.reply .ffOperation s (.inl rfl)) hm)

theorem writeAtPointer_of_none {s : State} (hp : s.bench.pointer = none) (w : Word) : s.writeAtPointer w = s := by
  unfold State.writeAtPointer; rw [hp]

/-- A data word written at the pointer changes the cell there and moves the pointer, after the claims ahead (R165, R166). -/
theorem writeAtPointer_eq {s : State} (hm : s.MapLaw) {p : Pointer} (hp : s.bench.pointer = some p) (w : Word) :
    s.writeAtPointer w = { s.claimsAhead with
      map := modifyCellOf s.claimsAhead.map p.head p.wedge (s.claimsAhead.dataWrite p w)
      bench := { s.bench with pointer := s.bench.afterData p } } := by
  have hc : s.claimsAhead.configured p.head p.wedge = true := by
    simpa [State.configured] using configured_of_pointer hm hp
  unfold State.writeAtPointer
  rw [hp]
  dsimp only
  rw [State.writeWord, State.benchWrite, if_pos hc, ← State.claimsAhead_bench s]
  rfl

/-- What a data word writes looks at the claims ahead in nothing (R165). -/
theorem dataWrite_claimsAhead (s : State) : s.claimsAhead.dataWrite = s.dataWrite := by
  funext p w o
  simp [State.dataWrite]

/-- Settles O56: the data word at the pointer, then the words of an import stage by stage. -/
theorem dataWords : Obligations.DataWords := by
  unfold Obligations.DataWords
  intro s w hm hsel hst
  refine ⟨fun p ha hp => ?_, fun ha hp => ?_, fun h left crc ha => ?_, fun h crc ha => ?_,
    fun h crc low ha => ?_, fun h ha => ?_⟩
  · have hm1 := claimsAhead_mapLaw hm
    let t : State := { s.claimsAhead with
      map := modifyCellOf s.claimsAhead.map p.head p.wedge (s.dataWrite p w)
      bench := { s.bench with pointer := s.bench.afterData p } }
    have hcell := cell_of_modifyCellOf (t := t) hm1 rfl
    have hat : t.cell p.head p.wedge = s.dataWrite p w (s.claimsAhead.cell p.head p.wedge) := by
      rw [hcell, if_pos ⟨rfl, rfl⟩]
    dsimp only
    refine ⟨s.claimsAhead, t.map, execAll_claims s, ?_, fun h x hne => ?_, fun hpk => ?_, fun hpk hpos => ?_, fun hpk hpos => ?_,
      fun hpk hpos => ⟨fun hn => ?_, fun st hcs hs => ?_⟩⟩
    · rw [exec_mapDataWord_of_takingData hsel hst ha, State.dataWord, writeAtPointer_eq hm hp, dataWrite_claimsAhead,
        afterData_eq (hm.pointer p hp).2.2.2.2]
    · refine (hcell h x).trans (if_neg ?_)
      rintro ⟨rfl, rfl⟩
      simp at hne
    · exact hat.trans (by rw [dataWrite_packed hpk, benchWorking_eq])
    · exact hat.trans (by rw [dataWrite_record_correction hpk _ _ hpos, benchWorking_eq])
    · exact hat.trans (dataWrite_record_published hpk _ _ hpos)
    · exact hat.trans ((dataWrite_record_status hpk _ _ hpos).trans (benchStatus_of_not_taken hn _))
    · exact hat.trans ((dataWrite_record_status hpk _ _ hpos).trans (benchStatus_of_taken hcs hs _))
  · rw [exec_mapDataWord_of_takingData hsel hst ha, State.dataWord, writeAtPointer_of_none hp]
  · refine ⟨_, exec_mapDataWord_of_takingData (s := { s with bench := { s.bench with assembly := .takingData none } })
      hsel hst rfl w, ?_⟩
    rw [exec_mapDataWord_of_takingData hsel hst ha, State.dataWord, State.dataWord, writeAtPointer_assembly]
    rfl
  · rw [exec_mapDataWord_of_takingData hsel hst ha]; rfl
  · rw [exec_mapDataWord_of_takingData hsel hst ha]
    refine ⟨fun hc => ?_, fun hc => ?_⟩
    · rw [State.dataWord, State.importWord]
      dsimp only
      rw [if_pos hc]
      rfl
    · rw [State.dataWord, State.importWord]
      dsimp only
      rw [if_neg hc]
      rfl
  · rw [exec_mapDataWord_of_takingData hsel hst ha]; rfl

end Sys2Proof.Machine
end

section
/-! The position error of a record: its branches and the clamp of its gain (R31 to R37). -/

namespace Sys2Proof.Machine

/-! ### Stages 1 and 2 (R31 to R35) -/

/-- The quotient of R32 and R34 by the model's name for it. -/
theorem rounded_eq_pairRatio (x y : Nat) : rounded (512 * ((x : Int) - y)) (x + y) = pairRatio x y := rfl

/-- A number times a sign is the number or its negative: R34 gives the magnitude the sign of the first ratio. -/
theorem sign_mul_of_ne_zero {r : Int} (hr : r ≠ 0) (m : Int) : r.sign * m = if 0 < r then m else -m := by
  split
  · rename_i h; rw [Int.sign_eq_one_of_pos h, one_mul]
  · rename_i h; rw [Int.sign_eq_neg_one_of_neg (by omega), neg_one_mul]

section Branches
variable {amin a b c d : Nat} (gain : Nat)

theorem positionError_of_first_weak (hab : a + b < amin) : positionError amin gain a b c d = .weak := if_pos hab

/-- The burst pair A, B gives the position by itself near the track's centre (R33). -/
theorem positionError_of_near (hab : amin ≤ a + b) (hr : (pairRatio a b).natAbs ≤ 256) :
    positionError amin gain a b c d = .error (scaleByGain gain (pairRatio a b)) := by
  rw [positionError, if_neg hab.not_gt, if_pos hr]

theorem positionError_of_second_weak (hab : amin ≤ a + b) (hr : 256 < (pairRatio a b).natAbs) (hcd : c + d < amin) :
    positionError amin gain a b c d = .weak := by
  rw [positionError, if_neg hab.not_gt, if_neg hr.not_ge, if_pos hcd]

/-- Away from the centre the pair C, D gives the magnitude of the position, and A, B its sign (R34, R35). A ratio is at most 512
in magnitude, so the magnitude is no negative number. -/
theorem positionError_of_far (hamin : 0 < amin) (hab : amin ≤ a + b) (hr : 256 < (pairRatio a b).natAbs) (hcd : amin ≤ c + d) :
    positionError amin gain a b c d =
      if 512 - ((pairRatio c d).natAbs : Int) < 192 then .inconsistent
      else .error (scaleByGain gain ((pairRatio a b).sign * (512 - ((pairRatio c d).natAbs : Int)))) := by
  have hm : (pairRatio c d).natAbs ≤ 512 := pairRatio_natAbs_le c d (by omega)
  rw [sign_mul_of_ne_zero (by omega), positionError, if_neg hab.not_gt, if_neg hr.not_ge, if_neg hcd.not_gt]
  dsimp only
  refine if_congr ?_ rfl rfl
  split <;> omega

end Branches

/-- Settles O7: the four branches of stages 1 and 2 exclude each other, and each has its own outcome. -/
theorem positionErrorBranches : Obligations.PositionErrorBranches := by
  intro amin gain a b c d hamin
  simp only [rounded_eq_pairRatio]
  rcases lt_or_ge (a + b) amin with hab | hab
  · simp [positionError_of_first_weak gain hab, hab, hab.not_ge]
  rcases le_or_gt (pairRatio a b).natAbs 256 with hr | hr
  · simp [positionError_of_near gain hab hr, hab, hab.not_gt, hr, hr.not_gt, eq_comm]
  rcases lt_or_ge (c + d) amin with hcd | hcd
  · simp [positionError_of_second_weak gain hab hr hcd, hab, hr, hr.not_ge, hcd, hcd.not_ge]
  rw [positionError_of_far gain (by omega) hab hr hcd]
  generalize 512 - ((pairRatio c d).natAbs : Int) = m
  rcases lt_or_ge m 192 with hm | hm
  · simp [hm, hm.not_ge, hab, hab.not_gt, hr, hr.not_ge, hcd, hcd.not_gt]
  · simp [hm, hm.not_gt, hab, hab.not_gt, hr, hr.not_ge, hcd, hcd.not_gt, eq_comm]

/-! ### Stage 3 (R37) -/

theorem rounded_natAbs (x : Int) (d : Nat) : (rounded x d).natAbs = roundedMagnitude x.natAbs d := by
  rcases lt_or_ge x 0 with hx | hx
  · rw [rounded_of_neg hx, Int.natAbs_neg, Int.natAbs_natCast]
  · rw [rounded_of_nonneg hx, Int.natAbs_natCast]

theorem clampInt_natAbs_le (n : Nat) (x : Int) : (clampInt (-(n : Int)) n x).natAbs ≤ n := by
  unfold clampInt; omega

theorem clampInt_of_natAbs_le {n : Nat} {x : Int} (hx : x.natAbs ≤ n) : clampInt (-(n : Int)) n x = x := by
  unfold clampInt; omega

theorem clampInt_of_lt_natAbs {n : Nat} {x : Int} (hx : n < x.natAbs) : clampInt (-(n : Int)) n x = n * x.sign := by
  rw [mul_comm, sign_mul_of_ne_zero (by omega)]
  unfold clampInt
  split <;> omega

theorem rounded_sign {x : Int} {d : Nat} (hd : 0 < d) (h : rounded x d ≠ 0) : (rounded x d).sign = x.sign := by
  rcases lt_trichotomy x 0 with hx | rfl | hx
  · rw [rounded_of_neg hx] at h ⊢
    rw [Int.sign_eq_neg_one_of_neg hx, Int.sign_eq_neg_one_of_neg (by omega)]
  · exact absurd (by simp [rounded, hd.ne']) h
  · rw [rounded_of_nonneg hx.le] at h ⊢
    rw [Int.sign_eq_one_of_pos hx, Int.sign_eq_one_of_pos (by omega)]

/-- The scaled position passes 1023 at the top of both ranges alone: 512 × 32752 is 1023.5 × 16384. -/
theorem scaled_exceeds_iff {gain : Nat} {p : Int} (hg : gainLegal gain) (hp : p.natAbs ≤ 512) :
    1023 < (rounded (p * gain) 16384).natAbs ↔ p.natAbs = 512 ∧ 32752 ≤ gain := by
  obtain ⟨-, hg⟩ := hg
  rw [rounded_natAbs, Int.natAbs_mul, Int.natAbs_natCast, roundedMagnitude]
  rcases hp.lt_or_eq with hp | hp
  · have hn : p.natAbs * gain ≤ 511 * 32767 := Nat.mul_le_mul (by omega) hg
    split <;> omega
  · rw [hp]
    split <;> omega

/-- Settles O8: the clamp acts where the scaled position exceeds 1023, and leaves it its sign, that of the position. -/
theorem gainClampOnlyAtTheTop : Obligations.GainClampOnlyAtTheTop := by
  intro gain p hg hp
  have hclamp : scaleByGain gain p ≠ rounded (p * gain) 16384 ↔ 1023 < (rounded (p * gain) 16384).natAbs := by
    refine ⟨fun h => ?_, fun h heq => ?_⟩
    · by_contra hle
      exact h (clampInt_of_natAbs_le (n := 1023) (by omega))
    · exact absurd (heq ▸ clampInt_natAbs_le 1023 _ : (rounded (p * gain) 16384).natAbs ≤ 1023) h.not_ge
  refine ⟨clampInt_natAbs_le 1023 _, hclamp.trans (scaled_exceeds_iff hg hp), fun h => ?_⟩
  have hexceeds := hclamp.mp h
  have hpos : (0 : Int) < gain := by have := hg.1; omega
  calc scaleByGain gain p
      = 1023 * (rounded (p * gain) 16384).sign := clampInt_of_lt_natAbs (n := 1023) hexceeds
    _ = 1023 * (p * gain).sign := by rw [rounded_sign (by decide) (by omega)]
    _ = 1023 * p.sign := by rw [Int.sign_mul, Int.sign_eq_one_of_pos hpos, mul_one]

end Sys2Proof.Machine
end

section
/-! What the Learning Engine makes of a record it takes (R29, R36, R39, R41), and the checks of a LEARN or VERIFY sample in their
order (R42, R63). -/

namespace Sys2Proof.Machine

theorem Phase.collecting_iff (p : Phase) : p.collecting = true ↔ p = .collect ∨ p = .plusCollect ∨ p = .minusCollect := by
  cases p <;> simp [Phase.collecting]

/-! ### Taking a record -/

/-- The run that a record of a head is handed on in (R41). -/
theorem admitting_eq (s : State) (h : Head) : s.admitting h = match s.runs.active with
    | none => none
    | some c =>
      if c.heads.get h = true ∧ (c.phase = .collect ∨ c.phase = .plusCollect ∨ c.phase = .minusCollect) then some c
      else none := by
  unfold State.admitting
  cases s.runs.active with
  | none => rfl
  | some c => simp only [Option.filter_some, Bool.and_eq_true, Phase.collecting_iff]

/-- With no record held the oldest of the Capture FIFO leaves it for stages 1 to 3 (R29). -/
theorem exec_learningTakeRecord_of_fifo {s : State} {r : Record} {rest : List Record} (hh : s.held = none)
    (hf : s.capture.fifo = r :: rest) :
    exec .learningTakeRecord s = .next (State.processRecord { s with capture := { s.capture with fifo := rest } } r) := by
  show Host.Outcome.next s.takeRecord = _
  unfold State.takeRecord
  rw [hh, hf]
  rfl

/-- Settles O39: the record leaves the FIFO, and each end of stage 3 is the model's own. -/
theorem recordTaken : Obligations.RecordTaken := by
  intro s r rest hh hf
  rw [exec_learningTakeRecord_of_fifo hh hf, State.processRecord]
  dsimp only [State.profile]
  cases positionError s.settings.amin (s.profiles.get r.head).gain r.a r.b r.c r.d with
  | weak => rfl
  | inconsistent => rfl
  | error e =>
    simp only [State.finishStage3, admitting_eq, PerHead.modify]
    cases s.runs.active with
    | none => rfl
    | some c => dsimp only; split <;> rfl

/-! ### The checks of a sample -/

/-- The checks of a LEARN or VERIFY sample in their order, each with what it finds (R63). -/
def sampleChecks (ctx : RunCtx) (outlierLimit : Nat) (c : Cell) (r : HeldRecord) : List (Discard × Bool) :=
  [(.offTrack, r.track != ctx.desc.track), (.early, (ctx.collectStart.map (earlier r.stamp)).getD false),
    (.suspect, c.state == .suspect), (.excluded, c.state == .excluded), (.stale, c.dirty || earlier r.stamp c.effRev),
    (.duplicate, c.lastStamp == some r.stamp), (.outlier, decide (outlierLimit < r.e.natAbs))]

theorem find_check_cons (d : Discard) (b : Bool) (l : List (Discard × Bool)) :
    (((d, b) :: l).find? Prod.snd).map Prod.fst = if b = true then some d else (l.find? Prod.snd).map Prod.fst := by
  cases b <;> rfl

/-- The judgement of a sample names the first of its checks that holds (R63). -/
theorem judgeSample_eq_find (ctx : RunCtx) (n : Nat) (c : Cell) (r : HeldRecord) :
    judgeSample ctx n c r = ((sampleChecks ctx n c r).find? Prod.snd).map Prod.fst := by
  simp only [judgeSample, sampleChecks, find_check_cons, bne_iff_ne, beq_iff_eq, decide_eq_true_eq, List.find?_nil,
    Option.map_none]

/-- A sample that a check before the outlier limit discards is counted and writes nothing (R63). -/
theorem learnSample_of_discard {s : State} {ctx : RunCtx} {r : HeldRecord} {d : Discard}
    (hj : judgeSample ctx s.settings.outlierLimit (s.cell r.head r.wedge) r = some d) (hd : d ≠ .outlier) :
    s.learnSample ctx r = s.countDiscard d := by
  unfold State.learnSample
  rw [hj]
  cases d with
  | outlier => exact absurd rfl hd
  | _ => rfl

/-- A record that the active run cannot take is finished uncounted (R42). -/
theorem learnOperation_of_no_run {s : State} {r : HeldRecord}
    (h : ∀ c, s.runs.active = some c → c.heads.get r.head = false ∨ c.serial ≠ r.run ∨ c.phase.collecting = false) :
    s.learnOperation r = s := by
  have hnone : (s.admitting r.head).filter (fun c => decide (c.serial = r.run)) = none := by
    simp only [State.admitting, Option.filter_filter, Option.filter_eq_none_iff]
    intro c hc
    rcases h c hc with h | h | h <;> simp [h]
  rw [State.learnOperation, hnone]

/-- Settles O40: the granted operation is that of the run that takes the record, whose judgement is its first check that holds. -/
theorem sampleChecksInOrder : Obligations.SampleChecksInOrder := by
  intro s r hheld hff
  rw [exec_learning_of_granted hheld hff]
  refine ⟨fun h => ?_, fun c hc hhead hser hphase hkind => ?_⟩
  · rw [learnOperation_of_no_run]
    intro c hc
    simpa only [← not_or, ← Phase.collecting_iff, Bool.not_eq_true] using h c hc
  · intro cell checks d ok hfind hd
    have hchecks : checks = sampleChecks c s.settings.outlierLimit cell r := by
      simp only [checks, sampleChecks]
      cases c.collectStart <;> rfl
    rw [learnOperation_of_run hc hhead hser (by rw [hphase]; rfl), if_neg hkind]
    rw [learnSample_of_discard _ hd]
    show judgeSample c s.settings.outlierLimit cell r = some d
    rw [judgeSample_eq_find, ← hchecks, hfind, Option.map_some]

end Sys2Proof.Machine
end

section
/-! The start of a run (R87 to R91, R93, R112). -/

namespace Sys2Proof.Machine

theorem HeadSet.toList_eq_nil_iff (hs : HeadSet) : hs.toList = [] ↔ ∀ h, hs.get h = false := by
  simp only [List.eq_nil_iff_forall_not_mem, HeadSet.mem_toList, Bool.not_eq_true]

/-- The start conditions (R87). -/
theorem canStart_of {s : State} {d : Descriptor} {rest : List Descriptor} (hactive : s.runs.active = none)
    (hqueue : s.runs.queue = d :: rest) (hresults : s.runs.results.length < 8) (hready : s.startup.unitState = .ready)
    (hff : s.settings.feedForward = true) (hsweep : s.sweep = none) : s.canStart = true := by
  simp [State.canStart, hactive, hqueue, hready, hff, hsweep, Config.resultQueueDepth, hresults]

section Starts
variable {s : State} {d : Descriptor} {rest : List Descriptor} (hs : s.canStart = true) (hqueue : s.runs.queue = d :: rest)
include hs hqueue

/-- With no head left a run concludes at once (R87, R88). -/
theorem exec_runStart_of_no_head (hno : ∀ h, (s.runHeads d).get h = false) :
    exec .runStart s = .next (State.conclude { s with runs := { s.runs with queue := rest } } (s.startContext d) .faulted .noHeads
      (PerHead.all .none)) := by
  show Host.Outcome.next s.startRun = _
  rw [State.startRun, if_pos hs, hqueue]
  exact congrArg _ (if_pos ((HeadSet.toList_eq_nil_iff _).mpr hno))

/-- With a head left a run begins (R87, R90). -/
theorem exec_runStart_of_head (hsome : ∃ h, (s.runHeads d).get h = true) :
    exec .runStart s = .next (State.beginRun { s with runs := { s.runs with queue := rest } } d) := by
  obtain ⟨h, hh⟩ := hsome
  have hne : (s.runHeads d).toList ≠ [] := List.ne_nil_of_mem ((HeadSet.mem_toList _ h).mpr hh)
  show Host.Outcome.next s.startRun = _
  rw [State.startRun, if_pos hs, hqueue]
  exact congrArg _ (if_neg hne)

end Starts

/-- The preparation of one cell (R90, R91). -/
theorem prepared_eq (rev : Rev) (reset : Bool) (perm : Permission) (o : Cell) :
    o.prepared rev reset perm =
      if reset = true ∧ o.state ≠ .excluded then
        { o with
          working := if perm.wc then 0 else o.working
          dirty := o.dirty || (perm.wc && o.working != 0)
          state := if perm.cs then .learning else o.state
          effRev := rev
          lastStamp := none }
      else { o with effRev := rev, lastStamp := none } := by
  unfold Cell.prepared Cell.resetLearn
  by_cases hreset : reset = true
  · by_cases hx : o.state = .excluded
    · simp [hreset, hx]
    · simp [hreset, hx]; rfl
  · simp [hreset]

/-- The cells of the wedges in use of the run's heads are prepared, and no other cell is written (R90, R91). -/
theorem cell_beginRun {s : State} (hm : s.MapLaw) (d : Descriptor) (h : Head) (w : Nat) :
    (s.beginRun d).cell h w =
      if (s.runHeads d).get h = true ∧ w < s.settings.wedges then
        (s.cell h w).prepared s.index.rev (decide (d.kind = .learn) && d.resetCells) (s.perms.learning.get h)
      else s.cell h w :=
  cell_of_updateRows_belowW (t := s.beginRun d) (f := fun k => Cell.prepared s.index.rev
    (decide (d.kind = .learn) && d.resetCells) (s.perms.learning.get k)) hm (s.beginRun_map d) h w

/-- The run's heads are marked for auto-publish (R90). -/
theorem profile_beginRun (s : State) (d : Descriptor) (h : Head) :
    (s.beginRun d).profile h =
      if (s.runHeads d).get h = true then { s.profile h with autoPublish := true } else s.profile h :=
  PerHead.get_ofFn _ h

/-- What the context of a run at its start says of one head (R88, R89). -/
theorem startContext_head (s : State) (d : Descriptor) (h : Head) :
    (s.startContext d).heads.get h = (d.heads.get h && !(s.profile h).importFault)
      ∧ (s.startContext d).skipped.get h = (d.heads.get h && (s.profile h).importFault)
      ∧ (s.startContext d).peaks.get h = 0 ∧ (s.startContext d).sums.get h = {}
      ∧ ∀ w, (s.startContext d).verdict h w = .unmeasured :=
  ⟨PerHead.get_ofFn _ h, PerHead.get_ofFn _ h, PerHead.get_all _ h, PerHead.get_all _ h,
    fun w => by rw [RunCtx.verdict, State.startContext, PerHead.get_all, Sparse.get_nil]⟩

/-- Settles O37: the context is that of the model, the run concludes or begins as it has no head or some, and beginning it prepares
its cells and profiles. -/
theorem runStarts : Obligations.RunStarts := by
  intro s d rest hm hactive hqueue hresults hready hff hsweep
  have hs := canStart_of hactive hqueue hresults hready hff hsweep
  let s1 : State := { s with runs := { s.runs with queue := rest } }
  have hm1 : s1.MapLaw := { hm with }
  refine ⟨s.startContext d, startContext_head s d, rfl, rfl, rfl, rfl, rfl, rfl, rfl, rfl, rfl, rfl, rfl,
    exec_runStart_of_no_head hs hqueue, fun hsome => ⟨(s1.beginRun d).map, (s1.beginRun d).profiles,
      exec_runStart_of_head hs hqueue hsome, profile_beginRun s1 d, fun h w => ?_⟩⟩
  refine (cell_beginRun hm1 d h w).trans (if_congr Iff.rfl ?_ rfl)
  rw [prepared_eq]
  exact if_congr (by simp [s1, State.cell, and_assoc]) rfl rfl

end Sys2Proof.Machine
end

section
/-! The words of the readouts, of a result and of an item, as chapter 12 lays them out (R44, R55, R106, R107, R148, R155, R163,
R164, R189, R190). -/

namespace Sys2Proof.Machine

/-! ### Single words -/

theorem boolNat_mul (b : Bool) (n : Nat) : n * boolNat b = if b then n else 0 := by
  cases b <;> simp [boolNat]

/-- The four words of a monitor reading, by the parameter word that names its head (R44). -/
theorem monitorWords_eq {h : Word} (hh : h.toNat < 8) (m : Option Monitor) :
    monitorWords (Fin.ofNat 8 h.toNat) m = match m with
      | none => [h, 0, 0, 0]
      | some m => [BitVec.ofNat 16 (h.toNat + 32768), BitVec.ofInt 16 m.pes, BitVec.ofNat 16 m.wedge, m.stamp] := by
  have hval : (Fin.ofNat 8 h.toNat).val = h.toNat := Nat.mod_eq_of_lt hh
  have hword : wordOf h.toNat = h := BitVec.eq_of_toNat_eq (by simp [wordOf])
  cases m with
  | none => rw [monitorWords, hval, hword]
  | some m => rw [monitorWords, hval]; rfl

theorem headParam_of_lt {h : Word} (hh : h.toNat < 8) : headParam h = some (Fin.ofNat 8 h.toNat) := if_pos hh

theorem headParam_of_ge {h : Word} (hh : 8 ≤ h.toNat) : headParam h = none := if_neg hh.not_gt

/-! ### The readouts -/

/-- A readout on an open link leaves what a copy of its words leaves (R171, R181). -/
theorem exec_readout_of_open {s : State} (ho : s.LinkOpen) {i : Instr} {code : CmdCode} {ps ws ws' : List Word}
    (hl : i.linkWords = some (code, ps)) (hc : code ≠ .selfTest)
    (hp : s.perform code ps = s.judged fun _ => s.accept.startStream .copy ws) (hw : ws = ws') :
    exec i s = .next (s.streaming ws') := by
  rw [exec_of_open ho hl hc, hp, judged_of_open ho, startStream_copy, hw]

/-- The bits of a writer's permission word (R155, 12.7). -/
theorem getLsbD_permissionWord (t : PerHead Permission) (h : Head) :
    (permissionWord t).getLsbD h.val = (t.get h).wc ∧ (permissionWord t).getLsbD (8 + h.val) = (t.get h).cs := by
  unfold permissionWord
  simpa using getLsbD_mask_pair (PerHead.ofFn fun h => (t.get h).wc) (PerHead.ofFn fun h => (t.get h).cs) h

theorem exec_readMonitor_of_ge {s : State} (ho : s.LinkOpen) {h : Word} (hh : 8 ≤ h.toNat) :
    exec (.readMonitor h) s = .next (s.refuse .badParameter) := by
  rw [exec_of_open ho (i := .readMonitor h) rfl nofun]
  show Host.Outcome.next (s.cmdReadMonitor h) = _
  rw [State.cmdReadMonitor, judged_of_open ho, headParam_of_ge hh]

theorem cmdReadMonitor_of_lt (s : State) {h : Word} (hh : h.toNat < 8) : s.cmdReadMonitor h =
    s.judged fun _ => s.accept.startStream .copy (monitorWords (Fin.ofNat 8 h.toNat) (s.profile (Fin.ofNat 8 h.toNat)).monitor) := by
  rw [State.cmdReadMonitor, headParam_of_lt hh]
  rfl

/-- The seven words of Read Identity, with the code of the presence written out (R189). -/
theorem identityWords_eq (s : State) : s.identityWords =
    [0x0816, 1, BitVec.ofNat 16 s.startup.unitNo.val, BitVec.ofNat 16 s.settings.headsInstalled,
      BitVec.ofNat 16 s.settings.wedges, BitVec.ofNat 16 s.startup.testCode,
      match s.startup.presence with | .unknown => 0 | .present => 1 | .absent => 2 | .secondary => 3] := by
  unfold State.identityWords
  cases s.startup.presence <;> rfl

/-! ### Read Settings (R190) -/

/-- The first twelve words of Read Settings. -/
theorem settings_words_eq (t : Settings) : t.words =
    [BitVec.ofNat 16 t.headsInstalled, BitVec.ofNat 16 t.wedges, BitVec.ofNat 16 t.depth, BitVec.ofNat 16 t.learnGain,
      BitVec.ofNat 16 t.threshold, BitVec.ofNat 16 t.outlierLimit, BitVec.ofNat 16 t.suspectCount, BitVec.ofNat 16 t.cmax,
      BitVec.ofNat 16 t.amin, BitVec.ofNat 16 t.retryLimit, BitVec.ofNat 16 t.indexTimeout,
      if t.feedForward then 1 else 0] := by
  unfold Settings.words
  cases t.feedForward <;> rfl

/-- The options and marks of a head in the last of its words (12.7). -/
def Profile.marksWord (p : Profile) : Word :=
  wordOf (p.lead + 8 * boolNat p.inverted + 16 * boolNat p.offsetSplit + 32 * boolNat p.importFault
    + 64 * boolNat p.publishPending + 128 * boolNat p.autoPublish)

theorem profile_words_eq (p : Profile) : p.words =
    [BitVec.ofNat 16 p.gain, BitVec.ofNat 16 (p.pendingGain.getD 0), BitVec.ofInt 16 p.offset, p.marksWord] := rfl

/-- The lead and the five marks keep apart in their word. -/
theorem marksWord_fields {p : Profile} (hl : p.lead ≤ 7) :
    p.marksWord.toNat % 8 = p.lead
      ∧ (List.range 13).map (fun i => p.marksWord.getLsbD (3 + i))
        = [p.inverted, p.offsetSplit, p.importFault, p.publishPending, p.autoPublish] ++ List.replicate 8 false := by
  obtain ⟨gain, pending, lead, inverted, split, offset, fault, publish, auto, monitor⟩ := p
  simp only at hl
  unfold Profile.marksWord
  simp only
  clear gain pending offset monitor
  revert lead
  revert inverted split fault publish auto
  decide

/-- Of words laid out in groups of one length a whole number of groups is left out. -/
theorem drop_flatMap_of_length {α β : Type} {f : α → List β} {n : Nat} (hf : ∀ a, (f a).length = n) (k : Nat) (l : List α) :
    (l.flatMap f).drop (n * k) = (l.drop k).flatMap f := by
  induction k generalizing l with
  | zero => rfl
  | succ k ih =>
    cases l with
    | nil => simp
    | cons a l =>
      rw [List.flatMap_cons, List.drop_succ_cons, Nat.mul_succ, Nat.add_comm, ← List.drop_drop, List.drop_left' (hf a), ih]

theorem drop_allHeads (h : Head) : ∃ rest, allHeads.drop h.val = h :: rest := by
  fin_cases h <;> exact ⟨_, rfl⟩

/-- The four words of a head in Read Settings stand in the place of the head. -/
theorem settings_words_of_head (s : State) (h : Head) :
    ((allHeads.flatMap fun h => (s.profile h).words).drop (4 * h.val)).take 4 = (s.profile h).words := by
  obtain ⟨rest, hrest⟩ := drop_allHeads h
  rw [drop_flatMap_of_length (n := 4) (fun _ => rfl), hrest, List.flatMap_cons]
  rfl

/-! ### A result (R106, R107) -/

theorem headEntry_words_eq (e : HeadEntry) : e.words =
    [BitVec.ofNat 16 (e.head.val + if e.skipped then 32768 else 0), BitVec.ofNat 16 e.excluded, BitVec.ofNat 16 e.suspect,
      BitVec.ofNat 16 e.unmeasured, BitVec.ofNat 16 e.converged, BitVec.ofNat 16 e.learning, BitVec.ofNat 16 e.peak,
      BitVec.ofInt 16 e.offset, match e.gain with
        | .none => 0 | .gain g => BitVec.ofNat 16 g | .insufficient => 1 | .nonPositiveStep => 2 | .gainRange => 3] := by
  rw [HeadEntry.words, boolNat_mul]
  rfl

theorem runResult_words_eq (r : RunResult) : r.words =
    [BitVec.ofNat 16 (r.tag + 256 * (match r.kind with | .learn => 0 | .verify => 1 | .gain => 2)),
      BitVec.ofNat 16 ((match r.outcome with | .complete => 0 | .exhausted => 1 | .aborted => 2 | .faulted => 3)
        + 4 * (match r.cause with
            | .none => 0 | .haltRun => 1 | .feedForwardOff => 2 | .selfTest => 3 | .spindleLost => 4 | .noHeads => 5)),
      BitVec.ofNat 16 r.collectRevs, BitVec.ofNat 16 (r.retries + 256 * r.entries.length)]
    ++ r.totals.words ++ r.entries.flatMap HeadEntry.words := by
  rfl

/-! ### An item (R163, R164) -/

/-- The words of an unconfigured item are 0 (R17). -/
theorem itemAt_of_not_configured {s : State} {p : Pointer} (hc : s.configured p.head p.wedge = false) :
    s.itemAt p = List.replicate (if s.bench.order.packed then 1 else 3) 0 := by
  unfold State.itemAt
  rw [hc]
  cases s.bench.order.packed <;> rfl

theorem itemAt_of_configured {s : State} {p : Pointer} (hc : s.configured p.head p.wedge = true) :
    s.itemAt p = (s.cell p.head p.wedge).itemWords s.bench.order.packed := if_pos hc

/-- The status word of a Record item (12.7). -/
theorem statusWord_eq (c : Cell) : c.statusWord = BitVec.ofNat 16 ((match c.state with
      | .empty => 0 | .loaded => 1 | .learning => 2 | .converged => 3 | .suspect => 4 | .excluded => 5)
    + 8 * c.outliers + (if c.dirty then 128 else 0) + 256 * c.count) := by
  rw [Cell.statusWord, boolNat_mul]
  rfl

/-- Settles O54: each readout is a copy of its words, which the lemmas above give word by word. -/
theorem readoutWords : Obligations.ReadoutWords := by
  refine ⟨fun s ho => ⟨?_, ?_, fun h hh => exec_readMonitor_of_ge ho hh, fun h hh => ?_, ?_, ?_, ?_⟩, fun r => ?_,
    fun s p => ⟨itemAt_of_not_configured, fun hc => ⟨fun hp => ?_, fun hp => ?_⟩⟩⟩
  · exact exec_readout_of_open ho rfl nofun rfl rfl
  · have hbits (t : PerHead Permission) (h : Head) := getLsbD_permissionWord t h
    exact ⟨_, _, _, exec_readout_of_open ho rfl nofun rfl rfl, fun h => by simp only [hbits, and_self]⟩
  · exact exec_readout_of_open ho rfl nofun (cmdReadMonitor_of_lt s hh) (monitorWords_eq hh _)
  · exact exec_readout_of_open ho rfl nofun rfl rfl
  · exact exec_readout_of_open ho rfl nofun rfl (identityWords_eq s)
  · have hwords : s.settingsWords = _ := congrArg (· ++ [s.bench.enables.word] ++ _) (settings_words_eq s.settings)
    exact ⟨s.bench.enables.word, allHeads.flatMap fun h => (s.profile h).words,
      exec_readout_of_open ho rfl nofun rfl hwords, getLsbD_kinds_word _, rfl, fun h =>
        ⟨_, (settings_words_of_head s h).trans (profile_words_eq _), marksWord_fields⟩⟩
  · exact (runResult_words_eq r).trans (congrArg (_ ++ r.entries.flatMap ·) (funext headEntry_words_eq))
  · rw [itemAt_of_configured hc, hp]; rfl
  · rw [itemAt_of_configured hc, hp, Cell.itemWords, statusWord_eq]; rfl

end Sys2Proof.Machine
end

section
/-! What the ends of a sweep and the events of the pair can do: each said once, for the laws over every step (R198 to R201). -/

namespace Sys2Proof.Machine

/-- The end of a sweep leaves the sweep ended with some import faults cleared, or ends that phase of the test (R28, R198). -/
theorem endSweep_cases (s : State) (k : Sweep) :
    (∃ ps, s.endSweep k = { s with sweep := none, profiles := ps })
      ∨ ∃ p, s.endSweep k = State.endTestIfDone { s with sweep := none, startup := { s.startup with phase := p } } := by
  unfold State.endSweep
  dsimp only
  split
  case h_1 | h_2 => exact .inl ⟨_, rfl⟩
  case h_3 | h_4 =>
    split
    · exact .inr ⟨_, rfl⟩
    all_goals exact .inl ⟨s.profiles, rfl⟩

/-- An event of the pair's lines writes the pair watch and the event flags, and may end the test (R199, R200). -/
inductive PairEvent (s : State) : State → Prop
  | watch (u : Startup) (f : Kinds) (hu : u.unitState = s.startup.unitState) :
      PairEvent s { s with startup := u, bench := { s.bench with flags := f } }
  | ending (u : Startup) (f : Kinds) (hu : u.unitState = s.startup.unitState) :
      PairEvent s (State.endTestIfDone { s with startup := u, bench := { s.bench with flags := f } })

theorem pairEvent_same (s : State) : PairEvent s s := .watch s.startup s.bench.flags rfl

theorem pairEvent_setPresLine (s : State) (x : Bool) : PairEvent s (s.setPresLine x) := .watch _ s.bench.flags rfl

theorem pairEvent_assertPresent (s : State) : PairEvent s s.assertPresent := by
  unfold State.assertPresent
  split
  · exact .ending _ s.bench.flags rfl
  · exact pairEvent_setPresLine s true

theorem pairEvent_seePresent (s : State) : PairEvent s s.seePresent := by
  unfold State.seePresent
  split
  · exact .ending _ s.bench.flags rfl
  · exact pairEvent_same s

theorem pairEvent_closePresence (s : State) : PairEvent s s.closePresence := by
  unfold State.closePresence
  split
  · exact .ending _ s.bench.flags rfl
  · exact pairEvent_same s

theorem pairEvent_seePassed (s : State) : PairEvent s s.seePassed := by
  unfold State.seePassed
  split
  · exact .ending _ s.bench.flags rfl
  · exact pairEvent_same s

theorem pairEvent_pairTimeout (s : State) : PairEvent s s.pairTimeout := by
  unfold State.pairTimeout
  split
  · exact .ending _ (s.bench.flags.add .pairFault) rfl
  · exact pairEvent_same s

end Sys2Proof.Machine
end

section
/-! The active run, the index timer, the phase and the injection stay together over every step (R59, R87, R92, R110, R112). -/

namespace Sys2Proof.Machine

/-! ### The phase and the injection of a run -/

/-- What the law reads of a run: its kind, its phase and its injection. -/
def RunCtx.course (c : RunCtx) : RunKind × Phase × Injection := (c.desc.kind, c.phase, c.injection)

/-- The phase is one of the run's kind, and the injection is that of the phase (R92, R110, R112). -/
def RunCtx.InPhase (c : RunCtx) : Prop :=
  c.phase.ofGain = decide (c.desc.kind = .gain) ∧ c.injection = c.phase.injection

theorem RunCtx.InPhase.of_course {c d : RunCtx} (h : c.InPhase) (he : d.course = c.course) : d.InPhase := by
  simp only [RunCtx.course, Prod.mk.injEq] at he
  obtain ⟨hkind, hphase, hinj⟩ := he
  simpa only [RunCtx.InPhase, hkind, hphase, hinj] using h

@[simp] theorem RunCtx.course_count (c : RunCtx) (d : Discard) : (c.count d).course = c.course := rfl

/-- A run begins in the first phase of its kind (R89, R112). -/
theorem RunCtx.InPhase.startContext (s : State) (d : Descriptor) : (s.startContext d).InPhase := by
  unfold RunCtx.InPhase State.startContext
  by_cases hk : d.kind = .gain <;> simp [hk, Phase.ofGain, Phase.injection]

/-- A settle phase goes on, or gives way to a collect phase of the same kind and injection (R93). -/
theorem RunCtx.InPhase.stepSettle {c : RunCtx} (h : c.InPhase) {next : Phase} (r : Rev) (hg : next.ofGain = c.phase.ofGain)
    (hi : next.injection = c.phase.injection) : (c.stepSettle next r).InPhase := by
  unfold RunCtx.stepSettle
  split
  · exact ⟨hg.trans h.1, h.2.trans hi.symm⟩
  · exact h

/-- A settle phase that begins at an index is of the kind and the injection of the collect phase after it (R93, R95, R111). -/
theorem RunCtx.InPhase.settleAtIndex {c : RunCtx} {wait next : Phase} (r : Rev)
    (hg : wait.ofGain = decide (c.desc.kind = .gain)) (hi : c.injection = wait.injection) (hn : next.ofGain = wait.ofGain)
    (hni : next.injection = wait.injection) : (c.settleAtIndex wait next r).InPhase := by
  unfold RunCtx.settleAtIndex
  split
  · exact ⟨hn.trans hg, hi.trans hni.symm⟩
  · exact ⟨hg, hi⟩

/-- PLUS_COLLECT goes on, or gives way to the other sign's phases, with their injection (R111, R112). -/
theorem RunCtx.InPhase.plusIndex {c : RunCtx} (h : c.InPhase) (hp : c.phase = .plusCollect) (r : Rev) :
    (c.plusIndex r).InPhase := by
  have hg : c.phase.ofGain = true := by rw [hp]; rfl
  unfold RunCtx.plusIndex
  dsimp only
  split
  · exact h
  · exact RunCtx.InPhase.settleAtIndex r (hg.symm.trans h.1) rfl rfl rfl

/-- A run that keeps its course is active as before. -/
theorem isSome_active_of_course {s t : State} (h : t.runs.active.map RunCtx.course = s.runs.active.map RunCtx.course) :
    t.runs.active.isSome = s.runs.active.isSome := by
  simpa using congrArg Option.isSome h

/-! ### The law from its parts -/

/-- With no run active and the index timer Stopped the law holds. -/
theorem State.RunLaw.ended {s : State} (active : s.runs.active = none) (timer : s.index.timer = none) : s.RunLaw where
  active := fun h => by simp [active] at h
  timer := by rw [timer, active]; rfl
  phase := fun c hc => by rw [active] at hc; cases hc

/-- What the law does not read may change. -/
theorem State.RunLaw.frame {s t : State} (hs : s.RunLaw) (unit : t.startup.unitState = s.startup.unitState)
    (ff : t.settings.feedForward = s.settings.feedForward) (timer : t.index.timer = s.index.timer)
    (course : t.runs.active.map RunCtx.course = s.runs.active.map RunCtx.course) : t.RunLaw := by
  have hsome := isSome_active_of_course course
  refine ⟨fun h => ?_, ?_, fun c hc => ?_⟩
  · rw [unit, ff]; exact hs.active (hsome ▸ h)
  · rw [timer, hsome]; exact hs.timer
  · rw [hc, Option.map_some] at course
    obtain ⟨d, hd, he⟩ := Option.map_eq_some_iff.mp course.symm
    exact RunCtx.InPhase.of_course (hs.phase d hd) he.symm

theorem State.RunLaw.answered {s t : State} (hs : s.RunLaw) (h : Answered s t) : t.RunLaw := by
  obtain ⟨o, f, rfl⟩ := h
  exact hs.frame rfl rfl rfl rfl

/-- The active run goes on with another context. -/
theorem State.RunLaw.setRun {s : State} (hs : s.RunLaw) {ctx c : RunCtx} (ha : s.runs.active = some ctx) (hc : c.InPhase) :
    (s.setRun c).RunLaw where
  active := fun _ => hs.active (by rw [ha]; rfl)
  timer := by rw [State.setRun_index, hs.timer, ha]; rfl
  phase := by rintro _ ⟨⟩; exact hc

/-- A unit that is not Ready has no run active and its index timer Stopped. -/
theorem State.RunLaw.idle_of_not_ready {s : State} (hs : s.RunLaw) (h : s.startup.unitState ≠ .ready) :
    s.runs.active = none ∧ s.index.timer = none := by
  have hn : s.runs.active = none := by
    rw [← Option.not_isSome_iff_eq_none]
    exact fun ha => h (hs.active ha).1
  refine ⟨hn, ?_⟩
  rw [← Option.not_isSome_iff_eq_none, hs.timer, hn]
  exact nofun

/-! ### The ends of a run -/

/-- A conclusion leaves no run and a timer that is Stopped (R99). -/
theorem State.RunLaw.conclude (s : State) (ctx : RunCtx) (o : RunOutcome) (c : RunCause) (g : PerHead GainResult) :
    (s.conclude ctx o c g).RunLaw := .ended rfl rfl

/-- A timer that is Running with a run alone is Stopped once the run has been ended (R99). -/
theorem endRun_timer {s : State} (h : s.index.timer.isSome = s.runs.active.isSome) (o : RunOutcome) (c : RunCause) :
    (s.endRun o c).index.timer = none := by
  rcases endRun_cases s o c with ⟨hn, he⟩ | ⟨ctx, -, he⟩
  · rw [he, ← Option.not_isSome_iff_eq_none, h, hn]; exact nofun
  · rw [he]; rfl

theorem State.RunLaw.haltRun {s : State} (hs : s.RunLaw) : s.cmdHaltRun.RunLaw := by
  rcases cmdHaltRun_cases s with h | ⟨ctx, -, h⟩
  · exact hs.answered h
  · rw [h]; exact (State.RunLaw.conclude ..).answered (answered_accept _)

/-- Feed-Forward Off ends the run that needs feed-forward On (R101, R140). -/
theorem State.RunLaw.feedForwardOff {s : State} (hs : s.RunLaw) : s.cmdFeedForwardOff.RunLaw := by
  rcases judged_cases s _ with ⟨o, h⟩ | h
  · exact hs.answered (answered_of_eq_refuse h)
  · rw [State.cmdFeedForwardOff, h]
    exact (State.RunLaw.ended (endRun_active s.forwardOff _ _) (endRun_timer (s := s.forwardOff) hs.timer _ _)).answered
      (answered_accept _)

/-- Self-Test aborts the run before the unit is Starting (R202). -/
theorem State.RunLaw.selfTest {s : State} (hs : s.RunLaw) : s.cmdSelfTest.RunLaw := by
  have htimer := endRun_timer (s := { s with bench := { s.bench with stream := none } }) hs.timer .aborted .selfTest
  refine .ended (cmdSelfTest_active s) ?_
  unfold State.cmdSelfTest
  dsimp only
  generalize State.endRun _ _ _ = u at htimer ⊢
  unfold State.beginTest
  dsimp only
  split <;> exact htimer

theorem State.RunLaw.unitReset {s : State} (hs : s.RunLaw) : s.cmdUnitReset.RunLaw := by
  unfold State.cmdUnitReset
  split
  · exact hs.answered (answered_refuse s _)
  · exact .ended rfl rfl

/-! ### The operations of the link -/

theorem State.RunLaw.feedForwardOn {s : State} (hs : s.RunLaw) : s.cmdFeedForwardOn.RunLaw := by
  rcases judged_cases s _ with ⟨o, h⟩ | h
  · exact hs.answered (answered_of_eq_refuse h)
  · rw [State.cmdFeedForwardOn, h]
    exact { hs with active := fun ha => ⟨(hs.active ha).1, rfl⟩ }

/-- Set Setting leaves feed-forward as it is (R191). -/
theorem cmdSetSetting_feedForward (s : State) (a b : Word) :
    (s.cmdSetSetting a b).settings.feedForward = s.settings.feedForward := by
  rcases judged_cases s _ with ⟨o, h⟩ | h
  · rw [State.cmdSetSetting, h]; rfl
  rw [State.cmdSetSetting, h]
  clear h
  split
  · rfl
  · rename_i t ht
    unfold Settings.write at ht
    split at ht
    case h_10 => cases ht
    all_goals cases ht; rfl

theorem State.RunLaw.setGeometry {s : State} (hs : s.RunLaw) (a b : Word) : (s.cmdSetGeometry a b).RunLaw := by
  rcases cmdSetGeometry_cases s a b with h | ⟨-, -, h⟩
  · exact hs.answered h
  · rw [h]; exact hs.frame (by simp) rfl (by simp) (by simp)

/-- Every operation of the link keeps the law of the run. -/
theorem LinkOp.runLaw {i : Instr} {s t : State} (ho : LinkOp i s t) (hs : s.RunLaw) : t.RunLaw := by
  cases ho
  case cmdSelfTest => exact hs.selfTest
  case cmdUnitReset => exact hs.unitReset
  case cmdHaltRun => exact hs.haltRun
  case cmdFeedForwardOn => exact hs.feedForwardOn
  case cmdFeedForwardOff => exact hs.feedForwardOff
  case cmdSetGeometry a b => exact hs.setGeometry a b
  case cmdSetSetting a b => exact hs.frame (by simp) (cmdSetSetting_feedForward s a b) (by simp) (by simp)
  all_goals exact hs.frame (by simp) (by simp) (by simp) (by simp)

/-! ### The rows of the table -/

/-- A granted Learning Engine operation leaves the run in its phase (R62, R115). -/
@[simp] theorem active_course_grantLearning (s : State) :
    s.grantLearning.runs.active.map RunCtx.course = s.runs.active.map RunCtx.course := by
  have count (t : State) (d : Discard) := active_countDiscard RunCtx.course_count t d
  unfold State.grantLearning
  split
  · rfl
  split
  · rfl
  rename_i r _
  unfold State.learnOperation
  split
  · rfl
  rename_i ctx hctx
  simp only [State.admitting, Option.filter_eq_some_iff] at hctx
  have ha : s.runs.active = some ctx := hctx.1.1
  split
  · unfold State.gainSample
    split
    · rw [ha]; rfl
    · exact count { s with held := none } _
  · unfold State.learnSample
    split
    · unfold State.admitSample
      dsimp only
      repeat' split
      · rfl
      · rw [ha]; rfl
      · rfl
    · rw [count, State.discardOutlier_runs]
    · exact count { s with held := none } _

@[simp] theorem active_course_captureWord (s : State) (b : Bool) (w : Word) :
    (s.captureWord b w).runs.active.map RunCtx.course = s.runs.active.map RunCtx.course :=
  active_captureWord RunCtx.course_count s b w

@[simp] theorem active_course_takeRecord (s : State) :
    s.takeRecord.runs.active.map RunCtx.course = s.runs.active.map RunCtx.course :=
  active_takeRecord RunCtx.course_count s

/-- The test that ends is in a unit that is Starting, in which no run is active (R195, R201). -/
theorem State.RunLaw.endTestIfDone {s : State} (hs : s.RunLaw) : s.endTestIfDone.RunLaw := by
  unfold State.endTestIfDone
  split
  · split
    · rename_i h
      obtain ⟨hn, ht⟩ := hs.idle_of_not_ready (by rw [h.1]; exact nofun)
      exact .ended (by simpa using hn) (by simpa using ht)
    · exact hs
  · exact hs

theorem State.RunLaw.pairEvent {s t : State} (hs : s.RunLaw) (h : PairEvent s t) : t.RunLaw := by
  cases h with
  | watch u f hu => exact hs.frame hu rfl rfl rfl
  | ending u f hu => exact State.RunLaw.endTestIfDone (hs.frame hu rfl rfl rfl)

theorem State.RunLaw.endSweep {s : State} (hs : s.RunLaw) (k : Sweep) : (s.endSweep k).RunLaw := by
  rcases endSweep_cases s k with ⟨ps, h⟩ | ⟨p, h⟩
  · rw [h]; exact hs.frame rfl rfl rfl rfl
  · rw [h]; exact State.RunLaw.endTestIfDone (hs.frame rfl rfl rfl rfl)

theorem State.RunLaw.sweepStep {s : State} (hs : s.RunLaw) : s.sweepStep.RunLaw := by
  rcases sweepStep_cases s with h | ⟨k, -, ⟨k', -, h⟩ | ⟨-, h⟩⟩
  · rw [h]; exact hs
  · rw [h]; exact hs.frame rfl rfl rfl rfl
  · have h1 : (s.modifyCell k.nextHead k.nextWedge (s.sweepCell k.kind k.nextHead)).RunLaw := hs.frame rfl rfl rfl rfl
    rw [h]; exact h1.endSweep k

/-- A run begins in a Ready unit with feed-forward On, and starts the index timer (R87, R90). -/
theorem State.RunLaw.startRun {s : State} (hs : s.RunLaw) : s.startRun.RunLaw := by
  unfold State.startRun
  split
  · rename_i hc
    simp only [State.canStart, Bool.and_eq_true, decide_eq_true_eq] at hc
    obtain ⟨⟨⟨-, hready⟩, hff⟩, -⟩ := hc
    split
    · exact hs
    · dsimp only
      split
      · exact State.RunLaw.conclude ..
      · exact ⟨fun _ => ⟨hready, hff⟩, rfl, fun c hc => Option.some.inj hc ▸ RunCtx.InPhase.startContext _ _⟩
  · exact hs

section Index
variable {s : State} (hs : s.RunLaw) {ctx : RunCtx} (ha : s.runs.active = some ctx)
include hs ha

/-- A run that counts a revolution stays in its phase. -/
theorem State.RunLaw.countRev : (s.setRun ctx.countRev).RunLaw := hs.setRun ha (hs.phase ctx ha)

/-- A retry returns to the settle phase, or to COLLECT where there is no settling (R95). -/
theorem State.RunLaw.retry {c : RunCtx} (hc : c.InPhase) (hp : c.phase = .collect) (r : Rev) : (s.retry c r).RunLaw := by
  have hg : Phase.settle.ofGain = decide (c.desc.kind = .gain) := by rw [← hc.1, hp]; rfl
  have hi : c.injection = Phase.settle.injection := by rw [hc.2, hp]; rfl
  have hnew := RunCtx.InPhase.settleAtIndex (c := { c with retries := c.retries + 1 }) (next := .collect) r hg hi rfl rfl
  exact (hs.setRun ha hnew).frame rfl rfl rfl rfl

theorem State.RunLaw.learnIndex (hp : ctx.phase = .collect) (r : Rev) : (s.learnIndex ctx r).RunLaw := by
  unfold State.learnIndex
  dsimp only
  split
  · exact State.RunLaw.conclude ..
  · split
    · exact hs.countRev ha
    · split
      · exact hs.retry ha (c := ctx.countRev) (hs.phase ctx ha) hp r
      · exact State.RunLaw.conclude ..

theorem State.RunLaw.verifyIndex : (s.verifyIndex ctx).RunLaw := by
  unfold State.verifyIndex
  dsimp only
  split
  · exact hs.countRev ha
  · exact State.RunLaw.conclude ..

theorem State.RunLaw.minusIndex : (s.minusIndex ctx).RunLaw := by
  unfold State.minusIndex
  dsimp only
  split
  · exact hs.countRev ha
  · exact State.RunLaw.conclude ..

theorem State.RunLaw.stepSettle {next : Phase} (r : Rev) (hg : next.ofGain = ctx.phase.ofGain)
    (hi : next.injection = ctx.phase.injection) : (s.setRun (ctx.stepSettle next r)).RunLaw :=
  hs.setRun ha (RunCtx.InPhase.stepSettle (hs.phase ctx ha) r hg hi)

end Index

/-- A run at an index goes on in its phase or in the phase after it, or concludes (R92, R95, R111). -/
theorem State.RunLaw.runIndex {s : State} (hs : s.RunLaw) (r : Rev) : (s.runIndex r).RunLaw := by
  unfold State.runIndex
  split
  · exact hs
  · rename_i ctx ha
    split <;> rename_i hp
    · exact hs.stepSettle ha r (by rw [hp]; rfl) (by rw [hp]; rfl)
    · split
      · exact hs.verifyIndex ha
      · exact hs.learnIndex ha hp r
    · exact hs.stepSettle ha r (by rw [hp]; rfl) (by rw [hp]; rfl)
    · exact hs.setRun ha (RunCtx.InPhase.plusIndex (hs.phase ctx ha) hp r)
    · exact hs.stepSettle ha r (by rw [hp]; rfl) (by rw [hp]; rfl)
    · exact hs.minusIndex ha

/-- The index timer restarts exactly with a run active (R59). -/
theorem State.RunLaw.advanceRev {s : State} (hs : s.RunLaw) : s.advanceRev.RunLaw := by
  refine { hs with timer := ?_ }
  show (if s.runs.active.isSome then some s.settings.indexTimeout else s.index.timer).isSome = s.runs.active.isSome
  split
  · rename_i h; rw [h]; rfl
  · exact hs.timer

/-- Every operation of a step keeps the law of the run. -/
theorem Operation.runLaw {i : Instr} {s t : State} (ho : Operation i s t) (hs : s.RunLaw) : t.RunLaw := by
  cases ho
  case link h => exact h.runLaw hs
  case advanceRev => exact hs.advanceRev
  case runIndex r => exact hs.runIndex r
  case timerExpiry =>
    rcases timerExpiry_cases s with h | ⟨ctx, -, h⟩
    · rw [h]; exact hs
    · rw [h]; exact .ended rfl rfl
  case startRun => exact hs.startRun
  case sweepStep => exact hs.sweepStep
  case powerOn x => exact .ended rfl rfl
  case memoryTest r =>
    unfold State.endMemoryTest
    split
    · exact hs.frame rfl rfl rfl rfl
    · exact hs
  case assertPresent => exact hs.pairEvent (pairEvent_assertPresent s)
  case seePresent => exact hs.pairEvent (pairEvent_seePresent s)
  case closePresence => exact hs.pairEvent (pairEvent_closePresence s)
  case seePassed => exact hs.pairEvent (pairEvent_seePassed s)
  case pairTimeout => exact hs.pairEvent (pairEvent_pairTimeout s)
  all_goals exact hs.frame (by simp) (by simp) (by simp) (by simp)

/-- Settles O17, operation by operation. -/
theorem stepKeepsRunLaw : Obligations.StepKeepsRunLaw := by
  unfold Obligations.StepKeepsRunLaw
  intro s t hs ht
  exact step_keeps (P := State.RunLaw) (fun s q h => h.frame rfl rfl rfl rfl) (fun ho h => ho.runLaw h) hs ht

end Sys2Proof.Machine
end

section
/-! The queues stay within their bounds over every step, and the publications to come in ascending order of head (R45, R52, R74,
R85, R105, R171). -/

namespace Sys2Proof.Machine

/-! ### The law from its parts -/

@[simp] theorem isSome_active_grantLearning (s : State) : s.grantLearning.runs.active.isSome = s.runs.active.isSome :=
  isSome_active_of_course (active_course_grantLearning s)

/-- With the same run and the same publications to come, queues that do not grow stay within their bounds. -/
theorem State.QueueLaw.bounded {s t : State} (hs : s.QueueLaw) (frame : t.capture.frame.length ≤ s.capture.frame.length)
    (fifo : t.capture.fifo.length ≤ s.capture.fifo.length) (queue : t.runs.queue.length ≤ s.runs.queue.length)
    (results : t.runs.results.length ≤ s.runs.results.length) (active : t.runs.active.isSome = s.runs.active.isSome)
    (words : t.bench.returnQueue.length ≤ s.bench.returnQueue.length) (publishing : t.publishing = s.publishing) :
    t.QueueLaw where
  frame := frame.trans hs.frame
  fifo := fifo.trans hs.fifo
  runs := queue.trans hs.runs
  results := by
    rw [active]
    exact (Nat.add_le_add_right results _).trans hs.results
  words := words.trans hs.words
  publications := publishing ▸ hs.publications

/-- A state that shares every queue with one within bounds. -/
theorem State.QueueLaw.same {s t : State} (hs : s.QueueLaw) (capture : t.capture = s.capture) (runs : t.runs = s.runs)
    (words : t.bench.returnQueue = s.bench.returnQueue) (publishing : t.publishing = s.publishing) : t.QueueLaw :=
  hs.bounded (by rw [capture]) (by rw [capture]) (by rw [runs]) (by rw [runs]) (by rw [runs]) (by rw [words]) publishing

theorem State.QueueLaw.answered {s t : State} (hs : s.QueueLaw) (h : Answered s t) : t.QueueLaw := by
  obtain ⟨o, f, rfl⟩ := h
  exact hs.same rfl rfl rfl rfl

/-- What a judged command keeps: an answer, or its own terms. -/
theorem State.QueueLaw.judged {s : State} (hs : s.QueueLaw) (own : State → State) (ho : (own s).QueueLaw) :
    (s.judged own).QueueLaw := by
  rcases judged_cases s own with ⟨o, h⟩ | h
  · rw [h]; exact hs.answered (answered_refuse s o)
  · rw [h]; exact ho

/-! ### The Capture Port -/

theorem State.QueueLaw.setFrame {s : State} (hs : s.QueueLaw) {f : List Word} (hf : f.length ≤ 5) : (s.setFrame f).QueueLaw :=
  { hs with frame := hf }

theorem State.QueueLaw.countDiscard {s : State} (hs : s.QueueLaw) (d : Discard) : (s.countDiscard d).QueueLaw := by
  have hactive : (s.countDiscard d).runs.active.isSome = s.runs.active.isSome := by simp
  exact hs.bounded le_rfl le_rfl le_rfl le_rfl hactive le_rfl rfl

/-- A record enters the Capture FIFO where there is room (R52, R53). -/
theorem State.QueueLaw.queueRecord {s : State} (hs : s.QueueLaw) (r : Record) : (s.queueRecord r).QueueLaw := by
  unfold State.queueRecord
  split
  · rename_i hroom
    refine { hs with fifo := ?_ }
    rw [List.length_append]
    exact hroom
  · have hcount : ({ s with capture := { s.capture with overrun := satInc 255 s.capture.overrun } } : State).QueueLaw :=
      { hs with }
    exact { hcount.countDiscard .overrun with }

theorem State.QueueLaw.checkFrame {s : State} (hs : s.QueueLaw) (f : List Word) : (s.checkFrame f).QueueLaw := by
  unfold State.checkFrame
  dsimp only
  split
  · exact { hs with }
  split
  · exact { hs with }
  split
  · exact hs.countDiscard _
  split
  · exact hs.countDiscard _
  · exact hs.queueRecord _

/-- The sixth word of a frame leaves the assembly Idle, so five words are held at most (R45). -/
theorem State.QueueLaw.captureWord {s : State} (hs : s.QueueLaw) (b : Bool) (w : Word) : (s.captureWord b w).QueueLaw := by
  have hcount : ({ s with capture := s.capture.countMalformed } : State).QueueLaw := { hs with }
  have hone : [w].length ≤ 5 := Nat.le_add_left 1 4
  have hidle := hs.setFrame (f := []) (Nat.zero_le 5)
  unfold State.captureWord
  split
  · split
    · exact hs.setFrame hone
    · exact hcount.setFrame hone
  split
  · exact hcount
  split
  · rename_i hlt
    refine hs.setFrame ?_
    rw [List.length_append]
    exact hlt
  · unfold State.completeFrame
    split
    · exact hidle
    split
    · exact hidle
    · exact hidle.checkFrame _

/-- A record that is taken leaves the Capture FIFO (R29). -/
theorem State.QueueLaw.takeRecord {s : State} (hs : s.QueueLaw) : s.takeRecord.QueueLaw := by
  unfold State.takeRecord
  split
  · exact hs
  split
  · exact hs
  · rename_i r rest hq
    have hrest : rest.length ≤ Config.fifoDepth := by
      have h := hs.fifo
      rw [hq] at h
      exact Nat.le_of_succ_le h
    have h1 : ({ s with capture := { s.capture with fifo := rest } } : State).QueueLaw := { hs with fifo := hrest }
    unfold State.processRecord
    split
    · exact h1.countDiscard _
    · exact h1.countDiscard _
    · exact { h1 with }

/-! ### The Return Queue and streams -/

/-- Words for which there is room leave the Return Queue within its bound (R171). -/
theorem length_append_roomFor {q : List Word} (hq : q.length ≤ Config.returnQueueDepth) (ws : List Word) :
    (q ++ roomFor q ws).length ≤ Config.returnQueueDepth := by
  have hroom : (roomFor q ws).length ≤ Config.returnQueueDepth - q.length := List.length_take_le _ _
  rw [List.length_append]
  omega

/-- A result that has been placed in full leaves the Result Queue (R108). -/
theorem results_length_pump_le (s : State) : s.pump.runs.results.length ≤ s.runs.results.length := by
  have htail : s.runs.results.tail.length ≤ s.runs.results.length := by rw [List.length_tail]; omega
  unfold State.pump
  split
  · exact le_rfl
  dsimp only
  split
  · exact le_rfl
  split
  · exact le_rfl
  · exact htail
  · repeat' split
    all_goals exact le_rfl

/-- A stream places no word for which there is no room (R171). -/
theorem returnQueue_length_pump_le {s : State} (hs : s.bench.returnQueue.length ≤ Config.returnQueueDepth) :
    s.pump.bench.returnQueue.length ≤ Config.returnQueueDepth := by
  have hplace {q : List Word} (hq : q.length ≤ Config.returnQueueDepth) (ws : List Word) := length_append_roomFor hq ws
  unfold State.pump
  split
  · exact hs
  dsimp only
  split
  · exact hplace hs _
  split
  · exact hplace hs _
  · exact hplace hs _
  · split
    · split
      · exact hplace hs _
      · exact hplace (hplace hs _) _
    · exact hplace hs _

theorem State.QueueLaw.pump {s : State} (hs : s.QueueLaw) : s.pump.QueueLaw where
  frame := by simpa using hs.frame
  fifo := by simpa using hs.fifo
  runs := by simpa using hs.runs
  results := by
    rw [State.pump_runs_active]
    exact (Nat.add_le_add_right (results_length_pump_le s) _).trans hs.results
  words := returnQueue_length_pump_le hs.words
  publications := by simpa using hs.publications

theorem State.QueueLaw.startStream {s : State} (hs : s.QueueLaw) (k : StreamKind) (ws : List Word) :
    (s.startStream k ws).QueueLaw :=
  State.QueueLaw.pump { hs with }

/-- A readout starts its copy (R171, R181). -/
theorem State.QueueLaw.readout {s : State} (hs : s.QueueLaw) (k : StreamKind) (ws : List Word) :
    (s.accept.startStream k ws).QueueLaw :=
  (hs.answered (answered_accept s)).startStream k ws

theorem State.QueueLaw.readStreamItem {s : State} (hs : s.QueueLaw) (left : Option Nat) (crc : Option (BitVec 32)) :
    (s.readStreamItem left crc).QueueLaw := by
  unfold State.readStreamItem
  split
  · exact hs
  · exact State.QueueLaw.pump { hs with }

theorem State.QueueLaw.completeStreamRead {s : State} (hs : s.QueueLaw) : s.completeStreamRead.QueueLaw := by
  unfold State.completeStreamRead
  split
  · exact hs.readStreamItem _ _
  · exact hs

/-- An item places the words for which there is room, and loses the others (R170). -/
theorem State.QueueLaw.placeItem {s : State} (hs : s.QueueLaw) (p : Pointer) : (s.placeItem p).QueueLaw := by
  have hwords := length_append_roomFor hs.words (s.itemAt p)
  unfold State.placeItem
  dsimp only
  split
  · exact { hs with words := hwords }
  · exact { hs with words := hwords }

theorem State.QueueLaw.readReturnQueue {s : State} (hs : s.QueueLaw) : s.readReturnQueue.QueueLaw := by
  have htail : s.bench.returnQueue.tail.length ≤ Config.returnQueueDepth :=
    (List.length_tail ▸ Nat.sub_le _ _).trans hs.words
  unfold State.readReturnQueue
  dsimp only
  split
  · exact State.QueueLaw.pump { hs with words := htail }
  · exact { hs with }

/-! ### Runs and their results -/

/-- With a run active a result finds room (R105). -/
theorem State.QueueLaw.room {s : State} (hs : s.QueueLaw) {c : RunCtx} (ha : s.runs.active = some c) :
    s.runs.results.length < Config.resultQueueDepth := by
  have h := hs.results
  rw [ha] at h
  exact h

/-- A conclusion queues its result where there is room for it (R98, R105). -/
theorem State.QueueLaw.conclude {s : State} (hs : s.QueueLaw) (hroom : s.runs.results.length < Config.resultQueueDepth)
    (ctx : RunCtx) (o : RunOutcome) (c : RunCause) (g : PerHead GainResult) : (s.conclude ctx o c g).QueueLaw := by
  have hhead (d : DueHead) : (if ctx.heads.get d.head then d.concluded o else d).head = d.head := by
    unfold DueHead.concluded
    split
    · cases o <;> rfl
    · rfl
  refine { hs with results := ?_, publications := inHeadOrder_map hs.publications _ hhead }
  show (s.runs.results ++ [_]).length + 0 ≤ _
  rw [List.length_append]
  exact hroom

theorem State.QueueLaw.endRun {s : State} (hs : s.QueueLaw) (o : RunOutcome) (c : RunCause) : (s.endRun o c).QueueLaw := by
  rcases endRun_cases s o c with ⟨-, h⟩ | ⟨ctx, ha, h⟩
  · rw [h]; exact hs
  · rw [h]; exact hs.conclude (hs.room ha) ..

theorem State.QueueLaw.concludeGain {s : State} (hs : s.QueueLaw) (hroom : s.runs.results.length < Config.resultQueueDepth)
    (ctx : RunCtx) : (s.concludeGain ctx).QueueLaw := by
  have hhead (d : DueHead) : (d.takeGain ((s.gainResults ctx).get d.head)).head = d.head := by
    cases (s.gainResults ctx).get d.head <;> rfl
  have h1 : ({ s with
      profiles := updateProfiles s.profiles fun h p => p.takeGain ((s.gainResults ctx).get h)
      publishing := s.publishing.map fun d => d.takeGain ((s.gainResults ctx).get d.head) } : State).QueueLaw :=
    { hs with publications := inHeadOrder_map hs.publications _ hhead }
  exact h1.conclude hroom ..

theorem State.QueueLaw.setRun {s : State} (hs : s.QueueLaw) {ctx : RunCtx} (ha : s.runs.active = some ctx) (c : RunCtx) :
    (s.setRun c).QueueLaw :=
  hs.bounded le_rfl le_rfl le_rfl le_rfl (by rw [ha]; rfl) le_rfl rfl

theorem State.QueueLaw.runIndex {s : State} (hs : s.QueueLaw) (r : Rev) : (s.runIndex r).QueueLaw := by
  rcases runIndex_cases s r with ⟨-, h⟩ | ⟨ctx, c, ha, -, -, h | h | ⟨o, g, h⟩ | h⟩
  · rw [h]; exact hs
  · rw [h]; exact hs.setRun ha c
  · rw [h]; exact { hs.setRun ha c with }
  · rw [h]; exact hs.conclude (hs.room ha) ..
  · rw [h]; exact hs.concludeGain (hs.room ha) c

/-- A run starts with room for its result (R87, R105). -/
theorem State.QueueLaw.startRun {s : State} (hs : s.QueueLaw) : s.startRun.QueueLaw := by
  unfold State.startRun
  split
  · rename_i hc
    simp only [State.canStart, Bool.and_eq_true, decide_eq_true_eq] at hc
    obtain ⟨⟨⟨⟨-, hroom⟩, -⟩, -⟩, -⟩ := hc
    split
    · exact hs
    · rename_i d rest hq
      have hrest : rest.length ≤ Config.runQueueDepth := by
        have h := hs.runs
        rw [hq] at h
        exact Nat.le_of_succ_le h
      have h1 : ({ s with runs := { s.runs with queue := rest } } : State).QueueLaw := { hs with runs := hrest }
      dsimp only
      split
      · exact h1.conclude hroom ..
      · exact { h1 with results := hroom }
  · exact hs

theorem State.QueueLaw.haltRun {s : State} (hs : s.QueueLaw) : s.cmdHaltRun.QueueLaw := by
  rcases cmdHaltRun_cases s with h | ⟨ctx, ha, h⟩
  · exact hs.answered h
  · rw [h]; exact (hs.conclude (hs.room ha) ..).answered (answered_accept _)

theorem State.QueueLaw.feedForwardOff {s : State} (hs : s.QueueLaw) : s.cmdFeedForwardOff.QueueLaw := by
  have hoff : s.forwardOff.QueueLaw := { hs with }
  rcases cmdFeedForwardOff_cases s with h | h | ⟨ctx, ha, h⟩
  · exact hs.answered h
  · exact hoff.answered h
  · rw [h]; exact (hoff.conclude (hs.room ha) ..).answered (answered_accept _)

theorem State.QueueLaw.timerExpiry {s : State} (hs : s.QueueLaw) : s.timerExpiry.QueueLaw := by
  rcases timerExpiry_cases s with h | ⟨ctx, ha, h⟩
  · rw [h]; exact hs
  · rw [h]; exact { hs.conclude (hs.room ha) ctx .faulted .spindleLost (PerHead.all .none) with }

theorem State.QueueLaw.enqueueRun {s : State} (hs : s.QueueLaw) (a b c d e f g : Word) :
    (s.cmdEnqueueRun a b c d e f g).QueueLaw := by
  refine hs.judged _ ?_
  dsimp only
  split
  · exact hs.answered (answered_refuse s _)
  split
  · exact hs.answered (answered_refuse s _)
  split
  · exact hs.answered (answered_refuse s _)
  · rename_i hroom
    refine { hs with runs := ?_ }
    show (s.runs.queue ++ [_]).length ≤ _
    rw [List.length_append]
    exact not_le.mp hroom

theorem State.QueueLaw.cancelQueued {s : State} (hs : s.QueueLaw) (a : Word) : (s.cmdCancelQueued a).QueueLaw := by
  refine hs.judged _ ?_
  dsimp only
  split
  · exact { hs with runs := (List.length_filter_le _ _).trans hs.runs }
  · exact hs.answered (answered_refuse s _)

theorem State.QueueLaw.takeResult {s : State} (hs : s.QueueLaw) : s.cmdTakeResult.QueueLaw := by
  refine hs.judged _ ?_
  split
  · exact hs.answered (answered_refuse s _)
  · exact hs.readout _ _

/-! ### Tests, sweeps and resets -/

theorem State.QueueLaw.endTestIfDone {s : State} (hs : s.QueueLaw) : s.endTestIfDone.QueueLaw := by
  rcases endTestIfDone_cases s with h | ⟨own, h⟩
  · rw [h]; exact hs
  · have hqueue : (s.finishTest own).runs.queue.length ≤ s.runs.queue.length := by
      show (if _ then s.runs.queue else []).length ≤ _
      split
      · exact le_rfl
      · exact Nat.zero_le _
    rw [h]; exact hs.bounded le_rfl le_rfl hqueue le_rfl rfl le_rfl rfl

theorem State.QueueLaw.pairEvent {s t : State} (hs : s.QueueLaw) (h : PairEvent s t) : t.QueueLaw := by
  cases h with
  | watch u f hu => exact { hs with }
  | ending u f hu => exact State.QueueLaw.endTestIfDone { hs with }

theorem State.QueueLaw.sweepStep {s : State} (hs : s.QueueLaw) : s.sweepStep.QueueLaw := by
  rcases sweepStep_cases s with h | ⟨k, -, ⟨k', -, h⟩ | ⟨-, h⟩⟩
  · rw [h]; exact hs
  · rw [h]; exact { hs with }
  · rw [h]
    rcases endSweep_cases (s.modifyCell k.nextHead k.nextWedge (s.sweepCell k.kind k.nextHead)) k with ⟨ps, h⟩ | ⟨p, h⟩
    · rw [h]; exact { hs with }
    · rw [h]; exact State.QueueLaw.endTestIfDone { hs with }

theorem State.QueueLaw.beginTest {s : State} (hs : s.QueueLaw) : s.beginTest.QueueLaw := by
  unfold State.beginTest
  dsimp only
  split
  · exact hs.bounded le_rfl le_rfl (Nat.zero_le _) (Nat.zero_le _) rfl le_rfl rfl
  · exact { hs with }

theorem State.QueueLaw.selfTest {s : State} (hs : s.QueueLaw) : s.cmdSelfTest.QueueLaw := by
  have h0 : ({ s with bench := { s.bench with stream := none } } : State).QueueLaw := { hs with }
  have h1 := h0.endRun .aborted .selfTest
  unfold State.cmdSelfTest
  dsimp only
  generalize State.endRun _ _ _ = u at h1
  refine State.QueueLaw.answered (State.QueueLaw.beginTest ?_) (answered_accept _)
  exact { h1 with runs := Nat.zero_le _, fifo := Nat.zero_le _ }

theorem State.QueueLaw.unitReset {s : State} (hs : s.QueueLaw) : s.cmdUnitReset.QueueLaw := by
  unfold State.cmdUnitReset
  split
  · exact hs.answered (answered_refuse s _)
  · have hempty : s.applyUnitReset.QueueLaw :=
      ⟨hs.frame, Nat.zero_le _, Nat.zero_le _, Nat.zero_le _, Nat.zero_le _, by simpa using hs.publications⟩
    exact hempty.answered (answered_accept _)

theorem State.QueueLaw.haltStream {s : State} (hs : s.QueueLaw) : s.cmdHaltStream.QueueLaw := by
  unfold State.cmdHaltStream
  split
  · exact hs.answered (answered_refuse s _)
  · exact { hs with words := Nat.zero_le _ }

theorem State.QueueLaw.setGeometry {s : State} (hs : s.QueueLaw) (a b : Word) : (s.cmdSetGeometry a b).QueueLaw := by
  rcases cmdSetGeometry_cases s a b with h | ⟨-, -, h⟩
  · exact hs.answered h
  · have happlied : (s.applyGeometry a.toNat b.toNat).QueueLaw :=
      hs.bounded le_rfl (Nat.zero_le _) (by simp) (by simp) (by simp) (by simp) (by simp)
    rw [h]; exact happlied.answered (answered_accept _)

/-! ### Every operation -/

theorem wordsKeep_queueLaw : WordsKeep State.QueueLaw := by
  constructor
  case streamRead => exact fun s hs => hs.completeStreamRead
  case streamStart => exact fun s left crc hs => (hs.answered (answered_accept s)).readStreamItem left crc
  case cmdSetGeometry => exact fun s a b hs => hs.setGeometry a b
  case cmdEnqueueRun => exact fun s a b c d e f g hs => hs.enqueueRun a b c d e f g
  case cmdCancelQueued => exact fun s a hs => hs.cancelQueued a
  case cmdReadMonitor =>
    intro s a hs
    refine hs.judged _ ?_
    split
    · exact hs.answered (answered_refuse s _)
    · exact hs.readout _ _
  all_goals
    intros
    exact State.QueueLaw.bounded ‹_› (by simp) (by simp) (by simp) (by simp) (by simp) (by simp) (by simp)

theorem keptBy_queueLaw : KeptBy State.QueueLaw := by
  constructor
  case toWordsKeep => exact wordsKeep_queueLaw
  case schedule => exact fun s l n hl hs => { hs with publications := hl hs.publications }
  case captureWord => exact fun s b w hs => hs.captureWord b w
  case takeRecord => exact fun s hs => hs.takeRecord
  case returnQueueRead => exact fun s hs => hs.readReturnQueue
  case runIndex => exact fun s r hs => hs.runIndex r
  case timerExpiry => exact fun s hs => hs.timerExpiry
  case runStart => exact fun s hs => hs.startRun
  case sweepStep => exact fun s hs => hs.sweepStep
  case powerOn => exact fun s b hs => { State.reset_queueLaw with }
  case assertPresent => exact fun s hs => hs.pairEvent (pairEvent_assertPresent s)
  case seePresent => exact fun s hs => hs.pairEvent (pairEvent_seePresent s)
  case closePresence => exact fun s hs => hs.pairEvent (pairEvent_closePresence s)
  case seePassed => exact fun s hs => hs.pairEvent (pairEvent_seePassed s)
  case pairTimeout => exact fun s hs => hs.pairEvent (pairEvent_pairTimeout s)
  case cmdSelfTest => exact fun s hs => hs.selfTest
  case cmdUnitReset => exact fun s hs => hs.unitReset
  case cmdHaltStream => exact fun s hs => hs.haltStream
  case placeItem => exact fun s p _ hs => hs.placeItem p
  case cmdHaltRun => exact fun s hs => hs.haltRun
  case cmdTakeResult => exact fun s hs => hs.takeResult
  case cmdFeedForwardOff => exact fun s hs => hs.feedForwardOff
  case cmdReadExclusions => exact fun s hs => hs.judged _ (hs.readout _ _)
  case cmdReadPermissions => exact fun s hs => hs.judged _ (hs.readout _ _)
  case cmdReadCaptureCounts => exact fun s hs => hs.judged _ (hs.readout _ _)
  case cmdReadIdentity => exact fun s hs => hs.judged _ (hs.readout _ _)
  case cmdReadSettings => exact fun s hs => hs.judged _ (hs.readout _ _)
  all_goals
    intros
    exact State.QueueLaw.bounded ‹_› (by simp) (by simp) (by simp) (by simp) (by simp) (by simp) (by simp)

/-- Settles O16, operation by operation, an index's publications in the order in which it finds them due. -/
theorem stepKeepsQueueLaw : Obligations.StepKeepsQueueLaw :=
  fun _ _ hs ht => keptBy_queueLaw.step hs ht

end Sys2Proof.Machine
end

section
/-! The words of the Capture Port (R45 to R53). -/

namespace Sys2Proof.Machine

/-! ### The word strobes -/

section Words
variable (s : State) (w : Word)

/-- A frame start while Idle begins a frame (R45). -/
theorem captureWord_start_of_idle (h : s.capture.frame = []) : s.captureWord true w = s.setFrame [w] := if_pos h

/-- A frame start ends a partial frame as Malformed (R46). -/
theorem captureWord_start_of_partial (h : s.capture.frame ≠ []) :
    s.captureWord true w = State.setFrame { s with capture := s.capture.countMalformed } [w] := if_neg h

/-- A word without frame start is stray while Idle (R46). -/
theorem captureWord_of_idle (h : s.capture.frame = []) :
    s.captureWord false w = { s with capture := s.capture.countMalformed } := if_pos h

/-- The second to the fifth word extend the frame (R45). -/
theorem captureWord_of_partial (h : s.capture.frame ≠ []) (hlt : s.capture.frame.length < 5) :
    s.captureWord false w = s.setFrame (s.capture.frame ++ [w]) := by
  rw [State.captureWord, if_neg Bool.false_ne_true, if_neg h, if_pos hlt]

/-- The sixth word completes the frame (R45). -/
theorem captureWord_of_five (h : s.capture.frame.length = 5) :
    s.captureWord false w = State.completeFrame (s.setFrame []) (s.capture.frame ++ [w]) := by
  have hne : s.capture.frame ≠ [] := by
    rintro he
    rw [he] at h
    cases h
  rw [State.captureWord, if_neg Bool.false_ne_true, if_neg hne, if_neg h.not_lt]

end Words

/-- Settles O29, word strobe by word strobe. -/
theorem captureWordAssembles : Obligations.CaptureWordAssembles := by
  unfold Obligations.CaptureWordAssembles
  intro s w
  refine ⟨fun h => ?_, fun h => ?_, fun h => ?_, fun hlow hhigh => ?_⟩
  · exact congrArg Host.Outcome.next (captureWord_start_of_idle s w h)
  · exact congrArg Host.Outcome.next (captureWord_start_of_partial s w h)
  · exact congrArg Host.Outcome.next (captureWord_of_idle s w h)
  · exact congrArg Host.Outcome.next (captureWord_of_partial s w (List.ne_nil_of_length_pos hlow) (Nat.lt_succ_of_le hhigh))

/-! ### The complete frame -/

theorem globalHead_eq (w : Word) : globalHead w = w.toNat / 4096 := by
  have hw : w.toNat < 65536 := w.isLt
  show w.toNat / 4096 % 16 = _
  omega

theorem wedgeField_eq (w : Word) : wedgeField w = w.toNat / 8 % 512 := rfl

theorem amplitude_eq (w : Word) : amplitude w = w.toNat % 4096 := by
  show w.toNat / 1 % 4096 = _
  rw [Nat.div_one]

/-- The record of a complete frame (R51, 12.3). -/
theorem recordOf_eq (w1 w2 w3 w4 w5 w6 : Word) (stamp : Rev) : recordOf [w1, w2, w3, w4, w5, w6] stamp =
    { head := Fin.ofNat 8 (w1.toNat / 4096), wedge := w1.toNat / 8 % 512, track := w2, a := w3.toNat % 4096,
      b := w4.toNat % 4096, c := w5.toNat % 4096, d := w6.toNat % 4096, stamp := stamp } := by
  simp only [← globalHead_eq, ← wedgeField_eq, ← amplitude_eq]
  rfl

/-- A complete frame is judged by its routing and the unit state, and then by the first checks (R47, R50). -/
theorem completeFrame_eq (s : State) (frame : List Word) : s.completeFrame frame =
    if unitOf (globalHead (frame.getD 0 0)) ≠ s.startup.unitNo.val ∨ s.startup.unitState ≠ .ready then s
    else s.checkFrame frame := by
  rw [State.completeFrame, ite_or]

/-- Settles O30, by the judgement of the frame and the record its words give. -/
theorem completeFrameJudged : Obligations.CompleteFrameJudged := by
  unfold Obligations.CompleteFrameJudged
  intro s w1 w2 w3 w4 w5 w6 hframe
  show Host.Outcome.next (s.captureWord false w6) = _
  rw [captureWord_of_five s w6 (by rw [hframe]; rfl), hframe, completeFrame_eq]
  simp only [List.cons_append, List.nil_append, State.checkFrame, recordOf_eq, List.getD_cons_zero, globalHead_eq, unitOf]
  rfl

end Sys2Proof.Machine
end

section
/-! Runs ended before their time (R60, R100, R101, R140). -/

namespace Sys2Proof.Machine

theorem endRun_of_run {s : State} {c : RunCtx} (hc : s.runs.active = some c) (o : RunOutcome) (cause : RunCause) :
    s.endRun o cause = s.conclude c o cause (PerHead.all .none) := by
  rw [State.endRun, hc]

theorem endRun_of_none {s : State} (hn : s.runs.active = none) (o : RunOutcome) (cause : RunCause) : s.endRun o cause = s := by
  rw [State.endRun, hn]

/-- The index timer, Running with a run active, expires (R60). -/
theorem timerExpiry_of_run {s : State} {c : RunCtx} {ms : Nat} (hc : s.runs.active = some c) (ht : s.index.timer = some ms) :
    s.timerExpiry = State.raise (s.conclude c .faulted .spindleLost (PerHead.all .none)) .spindleLost := by
  rw [State.timerExpiry, if_pos (by simp [hc, ht]), endRun_of_run hc]

/-- Halt Run on an open link (R100). -/
theorem exec_haltRun_of_open {s : State} (ho : s.LinkOpen) : exec .haltRun s =
    .next (if s.runs.active.isSome then State.accept (s.endRun .aborted .haltRun) else s.refuse .notFound) := by
  rw [exec_of_open ho (i := .haltRun) rfl nofun]
  show Host.Outcome.next s.cmdHaltRun = _
  rw [State.cmdHaltRun, judged_of_open ho]

/-- Feed-Forward Off on an open link (R140). -/
theorem exec_feedForwardOff_of_open {s : State} (ho : s.LinkOpen) : exec .feedForwardOff s =
    .next (State.accept (s.forwardOff.endRun .aborted .feedForwardOff)) := by
  rw [exec_of_open ho (i := .feedForwardOff) rfl nofun]
  show Host.Outcome.next s.cmdFeedForwardOff = _
  rw [State.cmdFeedForwardOff, judged_of_open ho]
  rfl

/-- Settles O36: each end is the conclusion of the active run, or nothing where none is active. -/
theorem runsEndedEarly : Obligations.RunsEndedEarly := by
  unfold Obligations.RunsEndedEarly
  intro s
  refine ⟨fun c ms hc ht => ?_, fun ho => ⟨fun c hc => ⟨?_, ?_⟩, fun hn => ⟨?_, ?_⟩⟩⟩
  · exact congrArg Host.Outcome.next (timerExpiry_of_run hc ht)
  · rw [exec_haltRun_of_open ho, if_pos (by rw [hc]; rfl), endRun_of_run hc]
    rfl
  · rw [exec_feedForwardOff_of_open ho, endRun_of_run (s := s.forwardOff) hc]
    rfl
  · rw [exec_haltRun_of_open ho, if_neg (by rw [hn]; exact nofun)]
  · rw [exec_feedForwardOff_of_open ho, endRun_of_none (s := s.forwardOff) hn]
    rfl

end Sys2Proof.Machine
end

section
/-! An index with a run in a settle phase or in PLUS_COLLECT (R59, R92, R93, R111, R112). -/

namespace Sys2Proof.Machine

/-- An index that only steps the context of the active run (R92, R111). -/
theorem exec_index_of_setRun {s : State} {c c1 : RunCtx} (hc : s.runs.active = some c)
    (hr : s.indexed.runIndex (s.index.rev + 1) = s.indexed.setRun c1) :
    exec .indexEvent s = .next { s.indexed.raise .revolution with runs := { s.runs with active := some c1 } } := by
  rw [exec_index_of_run hc]
  exact congrArg (fun t : State => Host.Outcome.next (t.raise .revolution)) hr

/-- In a settle phase an index steps the counter towards the collect phase after it (R92, R93, R110). -/
theorem runIndex_of_settling {s : State} {c : RunCtx} (hc : s.runs.active = some c)
    (hp : c.phase = .settle ∨ c.phase = .plusSettle ∨ c.phase = .minusSettle) (r : Rev) :
    s.runIndex r = s.setRun (c.stepSettle (if c.phase = .settle then .collect else if c.phase = .plusSettle then .plusCollect
      else .minusCollect) r) := by
  rw [State.runIndex, hc]
  rcases hp with hp | hp | hp <;> simp [hp]

theorem runIndex_of_plusCollect {s : State} {c : RunCtx} (hc : s.runs.active = some c) (hp : c.phase = .plusCollect) (r : Rev) :
    s.runIndex r = s.setRun (c.plusIndex r) := by
  rw [State.runIndex, hc]
  simp only [hp]

theorem stepSettle_eq (c : RunCtx) (next : Phase) (r : Rev) : c.stepSettle next r =
    if 2 ≤ c.settleCounter then { c with settleCounter := c.settleCounter - 1 }
    else { c with phase := next, settleCounter := 0, collectStart := some r, phaseRevs := 0 } := by
  unfold RunCtx.stepSettle
  split
  · rename_i h; rw [if_neg (by omega)]
  · rename_i h; rw [if_pos (by omega)]

theorem plusIndex_eq (c : RunCtx) (r : Rev) : c.plusIndex r =
    if c.phaseRevs + 1 < c.desc.phaseRevs then { c with phaseRevs := c.phaseRevs + 1, collectRevs := c.collectRevs + 1 }
    else if c.desc.settle = 0 then
      { c with phase := .minusCollect, injection := .minus, settleCounter := 0, collectStart := some r, phaseRevs := 0,
               collectRevs := c.collectRevs + 1 }
    else
      { c with phase := .minusSettle, injection := .minus, settleCounter := c.desc.settle, phaseRevs := 0,
               collectRevs := c.collectRevs + 1 } := rfl

/-- Settles O32: the index is the publications, then the step of the run's context. -/
theorem indexStepsSettling : Obligations.IndexStepsSettling := by
  unfold Obligations.IndexStepsSettling
  intro s c hc
  obtain ⟨u, hu, hv, -, -⟩ := exec_index_without_run s
  have hstep {c1 : RunCtx} (hr : s.indexed.runIndex (s.index.rev + 1) = s.indexed.setRun c1) : exec .indexEvent s =
      .next { u with
        index := { rev := s.index.rev + 1, timer := some s.settings.indexTimeout }
        runs := { s.runs with active := some c1 } } := by
    rw [exec_index_of_setRun hc hr, ← hv]
  have hi : s.indexed.runs.active = some c := hc
  refine ⟨u, hu, fun hp => ?_, fun hp => ?_⟩
  · dsimp only
    rw [← stepSettle_eq]
    exact hstep (runIndex_of_settling hi hp _)
  · dsimp only
    rw [← plusIndex_eq]
    exact hstep (runIndex_of_plusCollect hi hp _)

end Sys2Proof.Machine
end

section
/-! The publications of an index (R56, R74 to R78). -/

namespace Sys2Proof.Machine

/-! ### One publication -/

/-- A publication writes the map and the profiles alone (R75). -/
theorem publishHead_eq (s : State) (d : DueHead) :
    s.publishHead d = { s with map := (s.publishHead d).map, profiles := (s.publishHead d).profiles } := by
  unfold State.publishHead
  split <;> rfl

/-- The profile after the publication of one head (R75). -/
theorem profile_publishHead (s : State) (d : DueHead) (h : Head) :
    (s.publishHead d).profile h =
      if h = d.head ∧ h.val < s.settings.headsInstalled then (s.profile h).publish d (s.newOffset h) else s.profile h := by
  unfold State.publishHead
  by_cases hi : d.head.val < s.settings.headsInstalled
  · rw [if_pos hi]
    show (s.profiles.modify d.head _).get h = _
    rw [PerHead.get_modify]
    by_cases hh : h = d.head
    · subst hh
      rw [if_pos rfl, if_pos ⟨rfl, hi⟩]
      rfl
    · rw [if_neg hh, if_neg (fun hc => hh hc.1)]
      rfl
  · rw [if_neg hi, if_neg]
    rintro ⟨rfl, h⟩
    exact hi h

/-- The published offset, written out (R76). -/
theorem newOffset_eq (s : State) (h : Head) :
    s.newOffset h =
      let good := (List.range s.settings.wedges).filter fun w => (s.cell h w).state != .excluded
      if good = [] then 0 else rounded (good.map fun w => (s.cell h w).working).sum good.length := by
  have hgood : s.goodWedges h = (List.range s.settings.wedges).filter fun w => (s.cell h w).state != .excluded :=
    List.filter_congr fun w _ => by simp [bne, beq_eq_decide]
  rw [State.newOffset, hgood, meanOf, List.length_map]
  exact if_congr List.length_eq_zero_iff rfl rfl

/-- What a publication leaves of a profile that the index itself found so (R75, R77). -/
theorem publish_dueHead (s : State) (r : Rev) (h : Head) (offset : Int) :
    (s.profile h).publish (s.dueHead r h) offset =
      { s.profile h with
        offset := offset
        gain := (s.profile h).pendingGain.getD (s.profile h).gain
        pendingGain := none
        publishPending := false } := by
  have hmark : ((s.profile h).publishPending && !(s.profile h).publishPending) = false := Bool.and_not_self _
  unfold Profile.publish State.dueHead
  dsimp only
  rw [hmark]
  cases (s.profile h).pendingGain <;> rfl

/-! ### The publications of an index -/

/-- Publications, one after another, write the map and the profiles alone (R75). -/
theorem foldl_publishHead_eq (l : List DueHead) (s : State) :
    l.foldl State.publishHead s
      = { s with map := (l.foldl State.publishHead s).map, profiles := (l.foldl State.publishHead s).profiles } := by
  induction l generalizing s with
  | nil => rfl
  | cons d l ih =>
    rw [List.foldl_cons, ih, publishHead_eq s d]

/-- How many of its due heads an index publishes within its step: as many as the schedule says, and every one of the 8 at most
where it says nothing (log 29). -/
def State.atOnce (s : State) : Nat := s.publishAtOnce.headD 8

/-- With no publication to come from before, an index publishes the first of its due heads and leaves the others (R74). -/
theorem publications_of_none {s : State} (hp : s.publishing = []) :
    s.publications = (((allHeads.filter s.due).take s.atOnce).map (s.dueHead (s.index.rev + 1))).foldl State.publishHead
      { s with
        publishing := ((allHeads.filter s.due).drop s.atOnce).map (s.dueHead (s.index.rev + 1))
        publishAtOnce := s.publishAtOnce.tail } := by
  have hdue : (allHeads.filter s.due).map (s.dueHead (s.index.rev + 1)) = s.dueHeads (s.index.rev + 1) := rfl
  have hlen : (s.dueHeads (s.index.rev + 1)).length ≤ 8 := by
    rw [State.dueHeads, List.length_map]
    exact List.length_filter_le _ _
  rw [State.publications, publishAll_of_none hp, State.publishDue, State.atOnce, List.map_take, List.map_drop, hdue]
  cases s.publishAtOnce with
  | nil =>
    rw [List.headD_nil, List.headD_nil, List.take_of_length_le hlen, List.drop_of_length_le hlen, List.take_length,
      List.drop_length]
  | cons n l => rfl

section Published
variable {s : State} (hm : s.MapLaw) (hp : s.publishing = []) {h : Head}
include hp

/-- A head that an index does not publish within its step keeps its row and its profile. -/
theorem publications_of_not_published (hh : h ∉ (allHeads.filter s.due).take s.atOnce) :
    (∀ w, s.publications.cell h w = s.cell h w) ∧ s.publications.profile h = s.profile h := by
  have hother : ∀ d ∈ ((allHeads.filter s.due).take s.atOnce).map (s.dueHead (s.index.rev + 1)), d.head ≠ h := by
    intro d hd hc
    obtain ⟨k, hk, rfl⟩ := List.mem_map.mp hd
    exact hh (hc ▸ hk)
  obtain ⟨hrow, hprof⟩ := publications_other hother { s with
    publishing := ((allHeads.filter s.due).drop s.atOnce).map (s.dueHead (s.index.rev + 1))
    publishAtOnce := s.publishAtOnce.tail }
  rw [publications_of_none hp]
  exact ⟨fun w => by rw [State.cell, hrow]; rfl, hprof⟩

include hm

/-- A head that an index publishes within its step is published as it stands at the index (R75 to R77). -/
theorem publications_of_published (hh : h ∈ (allHeads.filter s.due).take s.atOnce) :
    (∀ w, s.publications.cell h w
        = if w < s.settings.wedges then (s.cell h w).publish (s.index.rev + 1) else s.cell h w)
      ∧ s.publications.profile h = (s.profile h).publish (s.dueHead (s.index.rev + 1) h) (s.newOffset h) := by
  have hi : h.val < s.settings.headsInstalled :=
    ((due_iff s h).mp (List.mem_filter.mp (List.mem_of_mem_take hh)).2).1
  have hnodup : ((((allHeads.filter s.due).take s.atOnce).map (s.dueHead (s.index.rev + 1))).map DueHead.head).Nodup := by
    rw [List.map_take, List.map_take]
    exact (nodup_dueHeads s _).sublist (List.take_sublist _ _)
  let s1 : State := { s with
    publishing := ((allHeads.filter s.due).drop s.atOnce).map (s.dueHead (s.index.rev + 1))
    publishAtOnce := s.publishAtOnce.tail }
  obtain ⟨hrow, hprof⟩ := publications_of_mem hnodup (List.mem_map_of_mem hh) s1
  rw [publications_of_none hp]
  refine ⟨fun w => ?_, ?_⟩
  · have hcell := cell_publishHead (s := s1) hm.canonical hm.geometry.2.2.2 (s.dueHead (s.index.rev + 1) h) h w
    rw [if_congr (show _ ↔ w < s.settings.wedges from ⟨fun hc => hc.2.2, fun hw => ⟨rfl, hi, hw⟩⟩) rfl rfl] at hcell
    rw [State.cell]
    exact (congrArg (Sparse.get Cell.blank · w) hrow).trans hcell
  · exact hprof.trans ((profile_publishHead s1 _ h).trans (if_pos ⟨rfl, hi⟩))

end Published

/-- An index with no run active, its publications apart (R56). -/
theorem exec_index_of_idle {s : State} (ha : s.runs.active = none) (hp : s.publishing = []) :
    exec .indexEvent s = .next { s with
      map := s.publications.map
      profiles := s.publications.profiles
      publishing := ((allHeads.filter s.due).drop s.atOnce).map (s.dueHead (s.index.rev + 1))
      publishAtOnce := s.publishAtOnce.tail
      index := { s.index with rev := s.index.rev + 1 }
      bench := { s.bench with flags := { s.bench.flags with revolution := true } } } := by
  rw [exec_index_of_no_run ha, publications_of_none hp, foldl_publishHead_eq]
  rfl

/-! ### The publications to come -/

theorem publishNext_of_cons {s : State} {d : DueHead} {rest : List DueHead} (hp : s.publishing = d :: rest) :
    s.publishNext = State.publishHead { s with publishing := rest } d := by
  rw [State.publishNext, hp]

/-- With no step waiting, the step is the publication next in turn (R74; log 29). -/
theorem step_of_publication {s : State} {d : DueHead} {rest : List DueHead} (hq : s.pending = [])
    (hp : s.publishing = d :: rest) : step s = .next (State.publishHead { s with publishing := rest } d) := by
  have hidle : step s = .next s.publishNext := by unfold step; rw [hq]
  rw [hidle, publishNext_of_cons hp]

/-- An index finds the publications to come made, whether or not the next was made before it (R74). -/
theorem publishAll_of_cons {s : State} {d : DueHead} {rest : List DueHead} (hp : s.publishing = d :: rest) :
    s.publishAll = s.publishNext.publishAll := by
  rw [publishNext_of_cons hp, State.publishAll, State.publishAll, hp, State.publishHead_publishing, List.foldl_cons]
  congr 1
  unfold State.publishHead
  dsimp only
  split <;> rfl

theorem takeIndex_congr {s t : State} (h : s.publishAll = t.publishAll) : s.takeIndex = t.takeIndex := by
  rw [State.takeIndex, State.takeIndex, h]

/-- Settles O31: the publications of the index itself, one that was to come, and the index that finds some to come. -/
theorem indexPublishes : Obligations.IndexPublishes := by
  unfold Obligations.IndexPublishes
  refine ⟨fun s hm ha hp => ?_, fun s d rest hm hq hp => ⟨fun hout => ?_, fun hi => ?_⟩, fun s d rest hp => ?_⟩
  · intro due n
    have hn : n = s.atOnce := by
      unfold State.atOnce
      simp only [n]
      cases s.publishAtOnce <;> rfl
    rw [hn]
    refine ⟨_, _, exec_index_of_idle ha hp, fun h => ⟨fun hh => ?_, fun hh => publications_of_not_published hp hh⟩⟩
    obtain ⟨hcell, hprof⟩ := publications_of_published hm hp hh
    refine ⟨fun w hw => (hcell w).trans (if_pos hw), fun w hw => (hcell w).trans (if_neg hw.not_gt), ?_⟩
    rw [← newOffset_eq, ← publish_dueHead]
    exact hprof
  · rw [step_of_publication hq hp, State.publishHead, if_neg hout.not_gt]
  · refine ⟨_, _, (step_of_publication hq hp).trans (congrArg _ (publishHead_eq _ d)), fun h w => ?_, fun h => ?_⟩
    · have hcell := cell_publishHead (s := { s with publishing := rest }) hm.canonical hm.geometry.2.2.2 d h w
      refine hcell.trans (if_congr ⟨fun hc => ⟨hc.1, hc.2.2⟩, fun hc => ⟨hc.1, hc.1 ▸ hi, hc.2⟩⟩ rfl rfl)
    · refine (profile_publishHead { s with publishing := rest } d h).trans
        (if_congr ⟨And.left, fun hc => ⟨hc, hc ▸ hi⟩⟩ ?_ rfl)
      dsimp only
      rw [← newOffset_eq]
      rfl
  · refine ⟨_, rfl, congrArg Host.Outcome.next (takeIndex_congr ?_)⟩
    rw [publishAll_of_cons hp, publishNext_of_cons hp, publishNext_of_cons (s := { s with pending := [] }) hp]
    unfold State.publishHead
    dsimp only
    split <;> rfl

end Sys2Proof.Machine
end

section
/-! What the conclusion of a run leaves, and the result it queues (R79, R98, R99, R106, R107). -/

namespace Sys2Proof.Machine

/-- The cells of the run heads are emptied of their sums and counts, and no other cell is written (R99). -/
theorem cellAt_conclude {s : State} (hm : s.MapLaw) (ctx : RunCtx) (o : RunOutcome) (cause : RunCause) (g : PerHead GainResult)
    (h : Head) (w : Nat) :
    cellAt (s.conclude ctx o cause g).map h w =
      if ctx.heads.get h = true ∧ w < s.settings.wedges then { s.cell h w with sum := 0, count := 0 } else s.cell h w :=
  cell_of_updateRows_belowW hm (f := fun _ => Cell.clearSums) (s.conclude_map ctx o cause g) h w

/-- What a conclusion leaves in a run head's profile, for each outcome (R98, R99). -/
theorem profile_concluded_eq (o : RunOutcome) (p : Profile) :
    p.concluded o = { p with
      autoPublish := false
      publishPending := p.publishPending || decide (o = .complete ∨ o = .exhausted)
      pendingGain := if o = .complete ∨ o = .exhausted then p.pendingGain else none } := by
  cases o <;> simp [Profile.concluded]

/-- What a conclusion leaves of a publication of a run head that is still to come (R79; log 29). -/
theorem dueHead_concluded_eq (o : RunOutcome) (d : DueHead) :
    d.concluded o = if o = .complete ∨ o = .exhausted then { d with marked := false } else d := by
  cases o <;> simp [DueHead.concluded]

/-- The profiles at a conclusion: those of the run heads are concluded (R98, R99). -/
theorem profile_conclude (s : State) (ctx : RunCtx) (o : RunOutcome) (cause : RunCause) (g : PerHead GainResult) (h : Head) :
    (s.conclude ctx o cause g).profiles.get h = if ctx.heads.get h = true then (s.profile h).concluded o else s.profile h :=
  PerHead.get_ofFn _ h

/-- The publications to come at a conclusion (R79; log 29). -/
theorem publishing_conclude (s : State) (ctx : RunCtx) (o : RunOutcome) (cause : RunCause) (g : PerHead GainResult) :
    (s.conclude ctx o cause g).publishing = s.publishing.map fun d =>
      if ctx.heads.get d.head = true ∧ (o = .complete ∨ o = .exhausted) then { d with marked := false } else d := by
  rw [State.conclude_publishing]
  refine List.map_congr_left fun d _ => ?_
  rw [dueHead_concluded_eq, ite_and]

/-! ### The entries of the result (R107) -/

theorem goodWedges_eq (s : State) (h : Head) :
    s.goodWedges h = (List.range s.settings.wedges).filter fun w => (s.cell h w).state != .excluded :=
  List.filter_congr fun w _ => by simp [bne, beq_eq_decide]

theorem verdictCount_eq (s : State) (ctx : RunCtx) (h : Head) (v : Verdict) :
    s.verdictCount ctx h v = ((List.range s.settings.wedges).filter fun w =>
      (s.cell h w).state != .excluded && (s.cell h w).state != .suspect && ctx.verdict h w == v).length :=
  congrArg List.length (List.filter_congr fun w _ => by simp [bne, beq_eq_decide])

/-- The mean of the values of a list's members; 0 where it has none (R76, R107). -/
theorem meanOf_map {α : Type} (l : List α) (f : α → Int) :
    meanOf (l.map f) = if l = [] then 0 else rounded (l.map f).sum l.length := by
  rw [meanOf, List.length_map]
  exact if_congr List.length_eq_zero_iff rfl rfl

/-- The heads that a result has entries of, in ascending order (R107). -/
theorem resultOf_heads (s : State) (ctx : RunCtx) (o : RunOutcome) (cause : RunCause) (g : PerHead GainResult) :
    (s.resultOf ctx o cause g).entries.map HeadEntry.head = allHeads.filter fun h => ctx.heads.get h || ctx.skipped.get h := by
  have hhead (h : Head) : (if ctx.heads.get h then s.entryOf ctx g h else { head := h, skipped := true }).head = h := by
    split <;> rfl
  rw [State.resultOf, List.map_map]
  exact (List.map_congr_left fun h _ => hhead h).trans (List.map_id _)

/-- An entry of a result is that of a run head or that of a skipped one (R107). -/
theorem mem_resultOf_entries {s : State} {ctx : RunCtx} {o : RunOutcome} {cause : RunCause} {g : PerHead GainResult}
    {e : HeadEntry} (he : e ∈ (s.resultOf ctx o cause g).entries) :
    (ctx.heads.get e.head = false → e = { head := e.head, skipped := true })
      ∧ (ctx.heads.get e.head = true → e = s.entryOf ctx g e.head) := by
  obtain ⟨h, -, rfl⟩ := List.mem_map.mp he
  cases hh : ctx.heads.get h with
  | false => exact ⟨fun _ => rfl, fun hc => absurd (hh.symm.trans hc) nofun⟩
  | true => exact ⟨fun hc => absurd (hh.symm.trans hc) nofun, fun _ => rfl⟩

/-- Settles O35: the map, the profiles, the publications to come and the result of a conclusion, each by its own lemma. -/
theorem conclusionEffects : Obligations.ConclusionEffects := by
  unfold Obligations.ConclusionEffects
  intro s c o cause gains hm
  refine ⟨(s.conclude c o cause gains).map, (s.conclude c o cause gains).profiles, s.resultOf c o cause gains, ?_,
    cellAt_conclude hm c o cause gains, fun h => ?_, rfl, rfl, rfl, rfl, rfl, rfl, rfl, resultOf_heads s c o cause gains,
    fun e he => ⟨(mem_resultOf_entries he).1, fun hh => ?_⟩⟩
  · rw [← publishing_conclude s c o cause gains]
    rfl
  · rw [profile_conclude, profile_concluded_eq]
  · refine ((mem_resultOf_entries he).2 hh).trans ?_
    simp only [State.entryOf, verdictCount_eq, meanOf_map, goodWedges_eq, countWedges, beq_eq_decide]

end Sys2Proof.Machine
end

section
/-! A sample of a LEARN or VERIFY run past the first six checks: an Outlier (R67, R149) or admitted (R69 to R72, R97). -/

namespace Sys2Proof.Machine

/-- The verdict mark of a cell after an update (R97). -/
theorem verdict_recordUpdate {ctx : RunCtx}
    (hv : ∀ h : Head, Sparse.wf Verdict.unmeasured Config.gridWedges (ctx.verdicts.get h) = true) (threshold : Nat) (k : Head)
    (v : Nat) (avg : Int) (h : Head) (w : Nat) :
    (ctx.recordUpdate threshold k v avg).verdict h w =
      if h = k ∧ w = v then (if avg.natAbs ≤ threshold then .converged else .learning) else ctx.verdict h w := by
  rw [RunCtx.verdict, RunCtx.recordUpdate]
  dsimp only
  rw [PerHead.get_set]
  by_cases hk : h = k
  · subst hk
    rw [if_pos rfl, Sparse.get_set _ _ ((Sparse.wf_iff _ _ _).mp (hv h)).1]
    exact if_congr (by simp) rfl rfl
  · rw [if_neg hk, if_neg fun hc => hk hc.1, RunCtx.verdict]

/-- A cell that is not Suspect turns so when its outlier count reaches K, and not before (R67). -/
theorem countOutlier_suspect_iff {k : Nat} {c : Cell} (hc : c.state ≠ .suspect) :
    (c.countOutlier k).state = .suspect ↔ k ≤ satInc 15 c.outliers := by
  unfold Cell.countOutlier
  dsimp only
  split
  · rename_i hk
    exact iff_of_true rfl hk
  · rename_i hk
    exact iff_of_false hc hk

/-- The update of a cell with no unpublished change, written out (R70 to R72). -/
theorem update_of_clean {c : Cell} (hc : c.dirty = false) (t : Settings) (depth : Nat) (write cs : Bool) :
    c.update t depth write cs =
      let avg := c.average depth
      let new := if write = true then newCorrection t avg c.working else c.working
      { c with
        working := new
        dirty := decide (new ≠ c.working)
        state := if cs = false then c.state else if avg.natAbs ≤ t.threshold then .converged else .learning
        sum := 0
        count := 0 } := by
  unfold Cell.update
  rw [hc]
  cases cs <;> rfl

/-! ### The granted operation -/

section Granted
variable {s : State} {r : HeldRecord} {c : RunCtx} (held : s.held = some r) (granted : ∀ q, s.ff.server ≠ .forming q)
  (active : s.runs.active = some c) (head : c.heads.get r.head = true) (run : c.serial = r.run) (phase : c.phase = .collect)
  (kind : c.desc.kind ≠ .gain)
include held granted active head run phase kind

/-- The Learning Engine operation of a sample of a LEARN or VERIFY run in its collect phase (R62). -/
theorem exec_learning_of_sample :
    exec .learningOperation s = .next (State.learnSample { s with held := none } c r) := by
  rw [exec_learning_of_granted held granted, learnOperation_of_run active head run (by rw [phase]; rfl), if_neg kind]

/-- The Learning Engine operation of a sample that fails the last check alone (R67). -/
theorem exec_learning_of_outlier (hj : judgeSample c s.settings.outlierLimit (s.cell r.head r.wedge) r = some .outlier) :
    exec .learningOperation s = .next (State.countDiscard (State.discardOutlier { s with held := none } c r) .outlier) := by
  rw [exec_learning_of_sample held granted active head run phase kind]
  have hj' : judgeSample c _ (State.cell { s with held := none } r.head r.wedge) r = some .outlier := hj
  rw [State.learnSample, hj']

/-- The Learning Engine operation of a sample that passes every check (R69). -/
theorem exec_learning_of_admitted (hj : judgeSample c s.settings.outlierLimit (s.cell r.head r.wedge) r = none) :
    exec .learningOperation s = .next (State.admitSample { s with held := none } c r) := by
  rw [exec_learning_of_sample held granted active head run phase kind]
  have hj' : judgeSample c _ (State.cell { s with held := none } r.head r.wedge) r = none := hj
  rw [State.learnSample, hj']

end Granted

/-- Settles O41: the sample is an Outlier, which by CS is counted in its cell. -/
theorem outlierSamples : Obligations.OutlierSamples := by
  intro s r c hm held granted active head run phase kind conf track early suspect excluded clean fresh unseen limit o n
  have hj := (judgeSample_of_first_six track early suspect excluded clean fresh unseen).trans (if_pos limit)
  rw [exec_learning_of_outlier held granted active head run phase kind hj, State.discardOutlier]
  have hconf : State.configured { s with held := none } r.head r.wedge = true := conf
  refine ⟨fun hcs => ?_, fun hcs => ⟨modifyCellOf s.map r.head r.wedge (Cell.countOutlier s.settings.suspectCount), ?_, ?_⟩⟩
  · rw [if_neg (by simp [hcs])]
  · rw [if_pos (by simp [hcs, hconf])]
    have hreq : (c.desc.autoExclude && decide ((o.countOutlier s.settings.suspectCount).state = .suspect)) = true
        ↔ s.settings.suspectCount ≤ n ∧ c.desc.autoExclude = true := by
      rw [Bool.and_eq_true, decide_eq_true_eq, countOutlier_suspect_iff suspect]
      exact and_comm
    exact congrArg (fun l => Host.Outcome.next (State.countDiscard { s with
      held := none
      map := modifyCellOf s.map r.head r.wedge (Cell.countOutlier s.settings.suspectCount)
      autoRequests := l } .outlier)) (if_congr hreq rfl rfl)
  · exact get_modifyCellOf hm.canonical r.head r.wedge _

/-- Settles O42: the sample is admitted, and accumulates or, as the D-th, updates its cell. -/
theorem admittedSamples : Obligations.AdmittedSamples := by
  intro s r c hm held granted active head run phase kind conf track early suspect excluded clean fresh unseen limit
    o perm avg moved new verdict
  have hj := (judgeSample_of_first_six track early suspect excluded clean fresh unseen).trans (if_neg limit.not_gt)
  have hconf : State.configured { s with held := none } r.head r.wedge = true := conf
  rw [exec_learning_of_admitted held granted active head run phase kind hj, State.admitSample, if_pos hconf]
  refine ⟨fun hlt => ⟨_, congrArg Host.Outcome.next (if_pos hlt), get_modifyCellOf hm.canonical r.head r.wedge _⟩,
    fun hge => ⟨_, _, congrArg Host.Outcome.next (if_neg hge.not_gt), fun h w => ?_, rfl,
      verdict_recordUpdate (hm.verdicts c active) _ _ _ _⟩⟩
  refine (get_modifyCellOf hm.canonical r.head r.wedge _ h w).trans (if_congr Iff.rfl ?_ rfl)
  have hnew : (if (decide (c.desc.kind = .learn) && perm.wc) = true then moved else o.working) = new :=
    if_congr (by simp) rfl rfl
  rw [← hnew]
  exact update_of_clean (c := o.accumulate r.e r.stamp) clean ..

end Sys2Proof.Machine
end

section
/-! The settings commands, Publish Now and Feed-Forward On (R80, R139, R191, R192). -/

namespace Sys2Proof.Machine

theorem roundDepth_eq (n : Nat) : roundDepth n =
    if n < 4 then 2 else if n < 8 then 4 else if n < 16 then 8 else if n < 32 then 16 else if n < 64 then 32 else 64 := by
  unfold roundDepth
  split_ifs <;> omega

theorem clampNat_zero (hi n : Nat) : clampNat 0 hi n = min hi n := Nat.zero_max _

/-- The setting that a selector names, with its value brought into its range (R191, 12.5). -/
theorem settings_write_eq (t : Settings) (n v : Nat) : t.write n v =
    if 9 ≤ n then none
    else some
      (if n = 0 then { t with depth := roundDepth v }
       else if n = 1 then { t with learnGain := max 1 (min 8 v) }
       else if n = 2 then { t with threshold := min 255 v }
       else if n = 3 then { t with outlierLimit := max 16 (min 1023 v) }
       else if n = 4 then { t with suspectCount := max 1 (min 15 v) }
       else if n = 5 then { t with cmax := max 64 (min 2047 v) }
       else if n = 6 then { t with amin := max 16 (min 4095 v) }
       else if n = 7 then { t with retryLimit := min 3 v }
       else { t with indexTimeout := max 20 (min 2000 v) }) := by
  by_cases hn : 9 ≤ n
  · obtain ⟨k, rfl⟩ := Nat.exists_eq_add_of_le' hn
    exact (if_pos hn).symm
  · rw [if_neg hn]
    interval_cases n <;> simp [Settings.write, clampNat]

/-! ### On an open link -/

section Open
variable {s : State} (ho : s.LinkOpen)
include ho

/-- Set Setting (R191). -/
theorem exec_setSetting_of_open (sel value : Word) : exec (.setSetting sel value) s = .next
    ((s.settings.write sel.toNat value.toNat).elim (s.refuse .badParameter) fun t => State.accept { s with settings := t }) := by
  have hp : s.perform .setSetting [sel, value] = s.cmdSetSetting sel value := rfl
  rw [exec_of_open ho (i := .setSetting sel value) rfl nofun, hp, State.cmdSetSetting, judged_of_open ho]
  cases s.settings.write sel.toNat value.toNat <;> rfl

/-- Set Head Gain (R192, R14). -/
theorem exec_setHeadGain_of_open (head gain : Word) : exec (.setHeadGain head gain) s = .next
    (if 8 ≤ head.toNat then s.refuse .badParameter
      else (s.modifyProfile (Fin.ofNat 8 head.toNat) fun p => { p with gain := clampNat 8192 32767 gain.toNat }).accept) := by
  have hp : s.perform .setHeadGain [head, gain] = s.cmdSetHeadGain head gain := rfl
  rw [exec_of_open ho (i := .setHeadGain head gain) rfl nofun, hp, State.cmdSetHeadGain, judged_of_open ho]
  by_cases hh : 8 ≤ head.toNat
  · rw [if_pos hh, headParam_of_ge hh]
  · rw [if_neg hh, headParam_of_lt (Nat.lt_of_not_le hh)]

/-- Set Head Options (R192, R14). -/
theorem exec_setHeadOptions_of_open (head lead polarity split : Word) : exec (.setHeadOptions head lead polarity split) s = .next
    (if 8 ≤ head.toNat then s.refuse .badParameter
      else if 1 < polarity.toNat ∨ 1 < split.toNat then s.refuse .badParameter
      else (s.modifyProfile (Fin.ofNat 8 head.toNat) fun p =>
        { p with lead := clampNat 0 7 lead.toNat, inverted := decide (polarity = 1),
                 offsetSplit := decide (split = 1) }).accept) := by
  have hp : s.perform .setHeadOptions [head, lead, polarity, split] = s.cmdSetHeadOptions head lead polarity split := rfl
  rw [exec_of_open ho (i := .setHeadOptions head lead polarity split) rfl nofun, hp, State.cmdSetHeadOptions, judged_of_open ho]
  by_cases hh : 8 ≤ head.toNat
  · rw [if_pos hh, headParam_of_ge hh]
  · rw [if_neg hh, headParam_of_lt (Nat.lt_of_not_le hh)]

end Open

/-- The configured heads that a head parameter names (R80). -/
def State.namedHeads (s : State) (heads : Word) : HeadSet :=
  PerHead.ofFn fun h => (HeadSet.ofWord heads).get h && decide (h.val < s.settings.headsInstalled)

theorem namedHeads_iff (s : State) (heads : Word) (h : Head) :
    (s.namedHeads heads).get h = true ↔ heads.getLsbD h.val = true ∧ h.val < s.settings.headsInstalled := by
  simp [State.namedHeads, HeadSet.ofWord]

/-- The profiles with the heads of a set marked publish pending (R80). -/
def State.markedPending (s : State) (hs : HeadSet) : PerHead Profile :=
  updateProfiles s.profiles fun h p => if hs.get h then { p with publishPending := true } else p

theorem get_markedPending (s : State) (hs : HeadSet) (h : Head) :
    (s.markedPending hs).get h = if hs.get h = true then { s.profile h with publishPending := true } else s.profile h :=
  PerHead.get_ofFn _ h

/-- Publish Now on an open link (R80). -/
theorem exec_publishNow_of_open {s : State} (ho : s.LinkOpen) (heads : Word) : exec (.publishNow heads) s = .next
    (if (s.namedHeads heads).toList = [] then s.refuse .badParameter
      else State.accept { s with profiles := s.markedPending (s.namedHeads heads) }) := by
  have hp : s.perform .publishNow [heads] = s.cmdPublishNow heads := rfl
  rw [exec_of_open ho (i := .publishNow heads) rfl nofun, hp, State.cmdPublishNow, judged_of_open ho]
  rfl

/-- Settles O59, command by command. -/
theorem settingsCommands : Obligations.SettingsCommands := by
  unfold Obligations.SettingsCommands
  intro s ho
  refine ⟨fun sel value => ?_, fun head gain => ?_, fun head lead polarity split => ?_, fun heads => ⟨fun hno => ?_, ?_⟩, ?_⟩
  · intro v
    rw [exec_setSetting_of_open ho, settings_write_eq, roundDepth_eq]
    by_cases hsel : 9 ≤ sel.toNat
    · rw [if_pos hsel, if_pos hsel, Option.elim_none]
    · rw [if_neg hsel, if_neg hsel]
      simp only [← BitVec.toNat_inj (x := sel)]
      rfl
  · exact exec_setHeadGain_of_open ho head gain
  · rw [exec_setHeadOptions_of_open ho, clampNat_zero, ← ite_or]
    rfl
  · have hnil : (s.namedHeads heads).toList = [] :=
      (HeadSet.toList_eq_nil_iff _).mpr fun h => Bool.eq_false_iff.mpr fun hc => hno h ((namedHeads_iff s heads h).mp hc)
    rw [exec_publishNow_of_open ho, if_pos hnil]
  · rintro ⟨h, hh⟩
    have hne : (s.namedHeads heads).toList ≠ [] :=
      List.ne_nil_of_mem ((HeadSet.mem_toList _ h).mpr ((namedHeads_iff s heads h).mpr hh))
    refine ⟨_, (exec_publishNow_of_open ho heads).trans (congrArg _ (if_neg hne)), fun k => ?_⟩
    rw [get_markedPending]
    exact ⟨fun hk => if_pos ((namedHeads_iff s heads k).mpr hk), fun hk => if_neg (mt (namedHeads_iff s heads k).mp hk)⟩
  · have hp : s.perform .feedForwardOn [] = s.cmdFeedForwardOn := rfl
    rw [exec_of_open ho (i := .feedForwardOn) rfl nofun, hp, State.cmdFeedForwardOn, judged_of_open ho]
    rfl

end Sys2Proof.Machine
end

section
/-! What a refusal, an event and a discard leave (R106, R181, R184). -/

namespace Sys2Proof.Machine

/-- An event sets its flag alone (R184). -/
theorem Kinds.get_add (t : Kinds) (k j : Kind) : (t.add k).get j = (decide (j = k) || t.get j) := by
  cases k <;> cases j <;> rfl

/-- A discard with a run active (R106). -/
theorem countDiscard_of_run {s : State} {ctx : RunCtx} (hc : s.runs.active = some ctx) (d : Discard) :
    s.countDiscard d = { s with runs := { s.runs with active := some { ctx with totals := ctx.totals.bump d } } } := by
  rw [State.countDiscard, hc]
  rfl

theorem countDiscard_of_none {s : State} (hn : s.runs.active = none) (d : Discard) : s.countDiscard d = s := by
  rw [State.countDiscard, hn, Option.map_none, ← hn]

/-- The twelve totals in the order of the result (R106). -/
def Totals.counts (t : Totals) : List Nat :=
  [t.idInvalid, t.saturated, t.weak, t.inconsistent, t.offTrack, t.early, t.stale, t.duplicate, t.outlier, t.suspect,
    t.excluded, t.overrun]

/-- The twelve causes in the order of the result (R106). -/
def Discard.inOrder : List Discard :=
  [.idInvalid, .saturated, .weak, .inconsistent, .offTrack, .early, .stale, .duplicate, .outlier, .suspect, .excluded, .overrun]

/-- A discard raises the total of its own cause alone, up to 65535 (R106). -/
theorem counts_bump (t : Totals) (d : Discard) :
    (t.bump d).counts
      = List.zipWith (fun cause n => if d = cause ∧ n < 65535 then n + 1 else n) Discard.inOrder t.counts := by
  cases d <;> simp [Totals.counts, Discard.inOrder, Totals.bump, satInc]

/-- Settles O24, clause by clause. -/
theorem refusalsEventsAndDiscards : Obligations.RefusalsEventsAndDiscards := by
  unfold Obligations.RefusalsEventsAndDiscards
  refine ⟨fun s o => rfl, fun s k => ⟨_, rfl, Kinds.get_add _ k⟩, fun s d hn => countDiscard_of_none hn d, fun s d ctx hc => ?_⟩
  exact ⟨ctx.totals.bump d, countDiscard_of_run hc d, rfl, counts_bump ctx.totals d⟩

end Sys2Proof.Machine
end

section
/-! What Unit Reset leaves (R103, R194). -/

namespace Sys2Proof.Machine

/-- Unit Reset in a selected unit that is not Failed, during a stream and a sweep too (R194). -/
theorem exec_unitReset_of_selected {s : State} (hs : s.bench.selected = s.startup.unitNo) (ha : s.bench.assembly = .idle)
    (hr : ∀ left crc, s.bench.stream ≠ some { kind := .map left crc, words := [] }) (hf : s.startup.unitState ≠ .failed) :
    exec .unitReset s = .next s.applyUnitReset.accept := by
  rw [exec_of_selected hs ha hr (i := .unitReset) rfl nofun]
  exact congrArg Host.Outcome.next (if_neg hf)

/-- Unit Reset empties every cell's sum and count and writes nothing else of it (R103). -/
theorem cell_applyUnitReset {s : State} (hm : s.MapLaw) (h : Head) (w : Nat) :
    s.applyUnitReset.cell h w = { s.cell h w with sum := 0, count := 0 } :=
  cell_of_updateRows hm s.applyUnitReset_map (fun _ _ _ => rfl) h w

theorem profile_applyUnitReset (s : State) (h : Head) : s.applyUnitReset.profile h =
    { s.profile h with publishPending := false, autoPublish := false, pendingGain := none } :=
  PerHead.get_ofFn _ h

/-- Settles O51: the command is its immediate work, which the cells and the profiles show head by head. -/
theorem unitResetEffects : Obligations.UnitResetEffects := by
  unfold Obligations.UnitResetEffects
  intro s hm hs ha hr hf
  refine ⟨s.applyUnitReset.map, s.applyUnitReset.profiles, ?_, cell_applyUnitReset hm, profile_applyUnitReset s⟩
  rw [exec_unitReset_of_selected hs ha hr hf, State.applyUnitReset, State.accept]
  rfl

end Sys2Proof.Machine
end

section
/-! The commands on the Run Queue (R83, R84, R86). -/

namespace Sys2Proof.Machine

/-- The kind of run that a descriptor's first word names in bits 9..8 (12.5). -/
theorem runKind_ofWord_eq (w : Word) : RunKind.ofWord w =
    if w.toNat / 256 % 4 = 3 then none
    else some (if w.toNat / 256 % 4 = 0 then .learn else if w.toNat / 256 % 4 = 1 then .verify else .gain) := by
  have hf : field w 8 2 = w.toNat / 256 % 4 := rfl
  have hlt : w.toNat / 256 % 4 < 4 := Nat.mod_lt _ (by decide)
  rw [RunKind.ofWord, hf]
  generalize w.toNat / 256 % 4 = n at hlt
  interval_cases n <;> rfl

theorem headSet_eq_empty_iff (hs : HeadSet) : hs = PerHead.all false ↔ hs.toList = [] := by
  rw [HeadSet.toList_eq_nil_iff]
  exact ⟨fun h k => by rw [h, PerHead.get_all], fun h => PerHead.ext_get fun k => by rw [h k, PerHead.get_all]⟩

theorem tagField_eq (w : Word) : field w 0 8 = w.toNat % 256 := by
  rw [field, Nat.pow_zero, Nat.div_one, show 2 ^ 8 = 256 from rfl]

/-- The descriptor of seven words, written out (R83, 12.5). -/
theorem descriptorOf_eq (installed : Nat) (kind : RunKind) (w1 w2 w3 w4 w5 w6 w7 : Word) :
    descriptorOf installed kind w1 w2 w3 w4 w5 w6 w7 =
      { tag := w1.toNat % 256
        kind := kind
        heads := PerHead.ofFn fun h => w2.getLsbD h.val && decide (h.val < installed)
        track := w3
        settle := min 15 w4.toNat
        budget := max 1 (min 1023 w5.toNat)
        noRetry := w2.getLsbD 8
        autoExclude := w2.getLsbD 9
        resetCells := w2.getLsbD 10
        step := max 16 (min 256 w6.toNat)
        phaseRevs := max 1 (min 16 w7.toNat) } := by
  have hheads (h : Head) : (HeadSet.ofWord w2).get h = w2.getLsbD h.val := PerHead.get_ofFn _ h
  simp only [descriptorOf, hheads, tagField_eq, clampNat_zero]
  rfl

section Open
variable {s : State} (ho : s.LinkOpen)
include ho

/-- Enqueue Run on an open link (R84). -/
theorem exec_enqueueRun_of_open (w1 w2 w3 w4 w5 w6 w7 : Word) : exec (.enqueueRun w1 w2 w3 w4 w5 w6 w7) s = .next
    ((RunKind.ofWord w1).elim (s.refuse .badParameter) fun kind =>
      let d := descriptorOf s.settings.headsInstalled kind w1 w2 w3 w4 w5 w6 w7
      if d.heads.toList = [] then s.refuse .badParameter
      else if 8 ≤ s.runs.queue.length then s.refuse .queueFull
      else State.accept { s with runs := { s.runs with queue := s.runs.queue ++ [d] } }) := by
  have hp : s.perform .enqueueRun [w1, w2, w3, w4, w5, w6, w7] = s.cmdEnqueueRun w1 w2 w3 w4 w5 w6 w7 := rfl
  rw [exec_of_open ho (i := .enqueueRun w1 w2 w3 w4 w5 w6 w7) rfl nofun, hp, State.cmdEnqueueRun, judged_of_open ho]
  cases RunKind.ofWord w1 <;> rfl

/-- Cancel Queued on an open link (R86). -/
theorem exec_cancelQueued_of_open (tag : Word) : exec (.cancelQueued tag) s = .next
    (if ∃ d ∈ s.runs.queue, d.tag = tag.toNat % 256 then
      State.accept { s with runs := { s.runs with queue := s.runs.queue.filter fun d => d.tag != tag.toNat % 256 } }
    else s.refuse .notFound) := by
  have hp : s.perform .cancelQueued [tag] = s.cmdCancelQueued tag := rfl
  have hne (d : Descriptor) : decide (d.tag ≠ tag.toNat % 256) = (d.tag != tag.toNat % 256) := by
    rw [bne, beq_eq_decide, decide_not]
  rw [exec_of_open ho (i := .cancelQueued tag) rfl nofun, hp, State.cmdCancelQueued, judged_of_open ho]
  simp only [tagField_eq, hne, List.any_eq_true, decide_eq_true_eq]

end Open

/-- Settles O38, command by command. -/
theorem runQueueCommands : Obligations.RunQueueCommands := by
  unfold Obligations.RunQueueCommands
  intro s ho
  refine ⟨fun w1 w2 w3 w4 w5 w6 w7 => ?_, fun tag => ⟨fun hno => ?_, fun hsome => ?_⟩⟩
  · intro heads kindNo
    rw [exec_enqueueRun_of_open ho, runKind_ofWord_eq]
    by_cases hk : kindNo = 3
    · rw [if_pos hk, if_pos hk, Option.elim_none]
    · rw [if_neg hk, if_neg hk, Option.elim_some]
      simp only [descriptorOf_eq, headSet_eq_empty_iff]
      rfl
  · have hnone : ¬ ∃ d ∈ s.runs.queue, d.tag = tag.toNat % 256 := fun ⟨d, hd, ht⟩ => hno d hd ht
    rw [exec_cancelQueued_of_open ho, if_neg hnone]
  · rw [exec_cancelQueued_of_open ho, if_pos hsome]
    rfl

end Sys2Proof.Machine
end

section
/-! An index with a run in COLLECT (R94 to R96). -/

namespace Sys2Proof.Machine

/-! ### The cells at the index -/

/-- The publications of an index change of a cell its published correction, its effective revolution and its dirty mark alone
(R75). -/
theorem cell_indexed {s : State} (hm : s.MapLaw) (h : Head) (w : Nat) :
    ∃ p r d, s.indexed.cell h w = { s.cell h w with published := p, effRev := r, dirty := d } := by
  have h0 : mapWf ({ s with publishing := [] } : State).map = true := hm.canonical
  have hw : s.publishAll.settings.wedges ≤ Config.gridWedges := by
    rw [State.publishAll_settings]
    exact hm.geometry.2.2.2
  obtain ⟨p, r, d, hbefore⟩ := publications_cell s.publishing h0 hm.geometry.2.2.2 h w
  let due := s.publishAll.dueHeads (s.index.rev + 1)
  let n := s.publishAll.publishAtOnce.headD due.length
  obtain ⟨p', r', d', hnow⟩ := publications_cell (due.take n)
    (s := { s.publishAll with publishing := due.drop n, publishAtOnce := s.publishAll.publishAtOnce.tail })
    (mapWf_publications s.publishing h0) hw h w
  have hcell : s.publishAll.cell h w = { s.cell h w with published := p, effRev := r, dirty := d } := hbefore
  exact ⟨p', r', d', hnow.trans (congrArg (fun c : Cell => { c with published := p', effRev := r', dirty := d' }) hcell)⟩

theorem State.MapLaw.indexed {s : State} (hm : s.MapLaw) : s.indexed.MapLaw :=
  { operations_keep Operation.mapLaw (publications_operations s) hm with verdicts := hm.verdicts }

theorem indexed_settings (s : State) : s.indexed.settings = s.settings := by
  show s.publications.settings = s.settings
  unfold State.publications
  simp

theorem indexed_perms (s : State) : s.indexed.perms = s.perms := by
  show s.publications.perms = s.perms
  unfold State.publications
  simp

/-- The convergence test: every cell of the run's heads that is neither Excluded nor Suspect is Converged (R94). -/
theorem converged_iff (s : State) (ctx : RunCtx) : s.converged ctx = true ↔
    ∀ (h : Head) (w : Nat), ctx.heads.get h = true → w < s.settings.wedges →
      (s.cell h w).state = .excluded ∨ (s.cell h w).state = .suspect ∨ (s.cell h w).state = .converged := by
  simp only [State.converged, List.all_eq_true, Bool.or_eq_true, Bool.not_eq_true', decide_eq_true_eq, List.mem_range, or_assoc]
  refine ⟨fun hall h w hh hw => ?_, fun hall h _ => ?_⟩
  · exact (hall h (mem_allHeads h)).resolve_left (by rw [hh]; exact nofun) w hw
  · cases hh : ctx.heads.get h with
    | false => exact .inl rfl
    | true => exact .inr fun w hw => hall h w hh hw

/-- Publications leave the convergence test as it stood (R75, R94). -/
theorem converged_indexed {s : State} (hm : s.MapLaw) (ctx : RunCtx) : s.indexed.converged ctx = s.converged ctx := by
  have hstate (h : Head) (w : Nat) : (s.indexed.cell h w).state = (s.cell h w).state := by
    obtain ⟨p, r, d, hcell⟩ := cell_indexed hm h w
    rw [hcell]
  simp only [State.converged, indexed_settings, hstate]

/-- A retry clears the cells of the run's heads, and no other (R95). -/
theorem cell_retry {s : State} (hm : s.MapLaw) (ctx : RunCtx) (r : Rev) (h : Head) (w : Nat) :
    (s.retry ctx r).cell h w =
      if ctx.heads.get h = true ∧ w < 512 then (s.cell h w).retried (s.perms.learning.get h).cs else s.cell h w := by
  have hblank (cs : Bool) : Cell.blank.retried cs = Cell.blank := by cases cs <;> rfl
  have hmap : (s.retry ctx r).map = updateRows s.map ctx.heads.get fun h _ => Cell.retried (s.perms.learning.get h).cs := by
    unfold State.retry State.setRun
    rfl
  rw [cell_of_updateRows hm hmap fun k _ _ => hblank _]
  by_cases hw : w < 512
  · simp only [hw, and_true]
  · rw [cell_of_ge hm.canonical h (Nat.le_of_not_lt hw), hblank, ite_self, ite_self]

/-! ### The step of the run -/

/-- In COLLECT an index takes the step of the run's kind (R92). -/
theorem runIndex_of_collect {s : State} {c : RunCtx} (hc : s.runs.active = some c) (hp : c.phase = .collect) (r : Rev) :
    s.runIndex r = if c.desc.kind = .verify then s.verifyIndex c else s.learnIndex c r := by
  rw [State.runIndex, hc]
  simp only [hp]

section LearnIndex
variable {s : State} {c : RunCtx} (r : Rev)

/-- A LEARN run passes the convergence test (R94). -/
theorem learnIndex_of_converged (hs : s.converged c.countRev = true) :
    s.learnIndex c r = s.conclude c.countRev .complete .none (PerHead.all .none) := if_pos hs

variable (hs : ¬ s.converged c.countRev = true)
include hs

/-- A LEARN run goes on within its budget (R95). -/
theorem learnIndex_of_budget (hlt : c.phaseRevs + 1 < c.desc.budget) : s.learnIndex c r = s.setRun c.countRev :=
  (if_neg hs).trans (if_pos hlt)

variable (hge : c.desc.budget ≤ c.phaseRevs + 1)
include hge

/-- A LEARN run at the end of its budget retries while retries remain (R95). -/
theorem learnIndex_of_retry (hno : c.desc.noRetry = false) (hlt : c.retries < s.settings.retryLimit) :
    s.learnIndex c r = s.retry c.countRev r :=
  (if_neg hs).trans ((if_neg hge.not_gt).trans (if_pos ⟨hno, hlt⟩))

/-- A LEARN run at the end of its budget with no retry left is Exhausted (R95). -/
theorem learnIndex_of_exhausted (hno : c.desc.noRetry = true ∨ s.settings.retryLimit ≤ c.retries) :
    s.learnIndex c r = s.conclude c.countRev .exhausted .none (PerHead.all .none) := by
  have hnone : ¬ (c.desc.noRetry = false ∧ c.retries < s.settings.retryLimit) := fun ⟨hn, hlt⟩ =>
    hno.elim (fun hy => absurd (hn.symm.trans hy) nofun) hlt.not_ge
  exact (if_neg hs).trans ((if_neg hge.not_gt).trans (if_neg hnone))

end LearnIndex

section Collect
variable {s : State} {c : RunCtx} (hc : s.runs.active = some c) (hp : c.phase = .collect)
include hc hp

/-- An index pulse in the COLLECT phase of a VERIFY run (R56, R96). -/
theorem exec_index_of_verify (hk : c.desc.kind = .verify) :
    exec .indexEvent s = .next ((s.indexed.verifyIndex c).raise .revolution) := by
  have hr := (runIndex_of_collect (s := s.indexed) hc hp (s.index.rev + 1)).trans (if_pos hk)
  rw [← hr]
  exact exec_index_of_run hc

/-- An index pulse in the COLLECT phase of a LEARN run (R56, R94, R95). -/
theorem exec_index_of_learn (hk : c.desc.kind = .learn) :
    exec .indexEvent s = .next ((s.indexed.learnIndex c (s.index.rev + 1)).raise .revolution) := by
  have hr := (runIndex_of_collect (s := s.indexed) hc hp (s.index.rev + 1)).trans (if_neg (by rw [hk]; exact nofun))
  rw [← hr]
  exact exec_index_of_run hc

end Collect

/-- Settles O33: the index is the publications, then the step of the run's kind, with the Revolution flag beside both. -/
theorem indexInCollect : Obligations.IndexInCollect := by
  unfold Obligations.IndexInCollect
  intro s c hm hc hp
  obtain ⟨u, hu, hindexed, -, -⟩ := exec_index_without_run s
  have hmap : u.map = s.indexed.map := (congrArg State.map hindexed :)
  have hcell (h : Head) (w : Nat) : u.cell h w = s.indexed.cell h w := by
    rw [State.cell, hmap, State.cell]
  refine ⟨u, hu, ?_⟩
  intro v c1 settled
  have hv : v = s.indexed.raise .revolution := hindexed
  have hsettled : s.indexed.converged c.countRev = true ↔ settled := by
    rw [converged_indexed hm]
    exact converged_iff s c.countRev
  have hgoes : (s.indexed.setRun c.countRev).raise .revolution = { v with runs := { s.runs with active := some c1 } } := by
    rw [hv]
    rfl
  have hends (o : RunOutcome) : (s.indexed.conclude c.countRev o .none (PerHead.all .none)).raise .revolution
      = v.conclude c1 o .none (PerHead.all .none) := by
    rw [hv]
    exact raise_conclude ..
  refine ⟨fun hk hlt => ?_, fun hk hge => ?_, fun hk hs => ?_, fun hk hs hlt => ?_, fun hk hs hge hno hlt => ?_,
    fun hk hs hge hno => ?_⟩
  · have hstep : s.indexed.verifyIndex c = s.indexed.setRun c.countRev := if_pos hlt
    rw [exec_index_of_verify hc hp hk, hstep, hgoes]
  · have hstep : s.indexed.verifyIndex c = s.indexed.conclude c.countRev .complete .none (PerHead.all .none) :=
      if_neg hge.not_gt
    rw [exec_index_of_verify hc hp hk, hstep, hends]
  · rw [exec_index_of_learn hc hp hk, learnIndex_of_converged _ (hsettled.mpr hs), hends]
  · rw [exec_index_of_learn hc hp hk, learnIndex_of_budget _ (mt hsettled.mp hs) hlt, hgoes]
  · rw [exec_index_of_learn hc hp hk,
      learnIndex_of_retry _ (mt hsettled.mp hs) hge hno (by rwa [indexed_settings])]
    refine ⟨(s.indexed.retry c.countRev (s.index.rev + 1)).map, ?_, fun h w => ?_⟩
    · rw [hv]
      rfl
    · obtain ⟨p, r, d, hi⟩ := cell_indexed hm h w
      have hr := cell_retry hm.indexed c.countRev (s.index.rev + 1) h w
      rw [indexed_perms, ← hcell] at hr
      rw [← hcell] at hi
      refine hr.trans (if_congr Iff.rfl ?_ rfl)
      simp only [Cell.retried, hi, Bool.and_eq_true, decide_eq_true_eq]
  · rw [exec_index_of_learn hc hp hk,
      learnIndex_of_exhausted _ (mt hsettled.mp hs) hge (by rwa [indexed_settings]), hends]

end Sys2Proof.Machine
end

section
/-! A sample of a GAIN run (R114, R115). -/

namespace Sys2Proof.Machine

/-- The four checks of a GAIN sample in their order, each with the discard it counts, and the sample that passes them
(R114). -/
theorem gainSample_eq (s : State) (c : RunCtx) (r : HeldRecord) : s.gainSample c r =
    if r.track ≠ c.desc.track then s.countDiscard .offTrack
    else if (c.collectStart.map (earlier r.stamp)).getD false = true then s.countDiscard .early
    else if (s.cell r.head r.wedge).state = .excluded then s.countDiscard .excluded
    else if s.settings.outlierLimit < r.e.natAbs then s.countDiscard .outlier
    else s.admitGainSample c r := by
  unfold State.gainSample judgeGainSample
  split_ifs <;> rfl

/-- In a collect phase of a GAIN run a sample enters the sum of that phase (R115). -/
theorem phaseSums_add_of_collect {p : Phase} (hp : p = .plusCollect ∨ p = .minusCollect) (sums : PhaseSums) (e : Int) :
    sums.add (decide (p = .minusCollect)) e =
      if p = .plusCollect then
        (if sums.plusCount < 65535 then { sums with plusSum := sums.plusSum + e, plusCount := sums.plusCount + 1 } else sums)
      else
        (if sums.minusCount < 65535 then { sums with minusSum := sums.minusSum + e, minusCount := sums.minusCount + 1 }
          else sums) := by
  rcases hp with rfl | rfl <;> rfl

/-- Settles O43: the granted operation is the GAIN judgement, whose last branch adds the sample to the phase's sum. -/
theorem gainSamples : Obligations.GainSamples := by
  unfold Obligations.GainSamples
  intro s r c held granted active head run phase kind
  have collecting : c.phase.collecting = true := (Phase.collecting_iff _).mpr (.inr phase)
  rw [exec_learning_of_granted held granted, learnOperation_of_run active head run collecting, if_pos kind, gainSample_eq,
    State.admitGainSample, PerHead.modify, phaseSums_add_of_collect phase]
  rfl

end Sys2Proof.Machine
end

section
/-! What Self-Test leaves (R120, R122, R197, R199, R200, R202). -/

namespace Sys2Proof.Machine

/-- What Self-Test leaves of a unit before its test begins: no stream, run, queued run, sweep, capture record or pending gain,
and the pointer at the window's start (R202). -/
def State.clearedForTest (s : State) : State :=
  let u := State.endRun { s with bench := { s.bench with stream := none } } .aborted .selfTest
  { u with
    runs := { u.runs with queue := [] }
    sweep := none
    capture := { u.capture with fifo := [] }
    profiles := updateProfiles u.profiles fun _ p => { p with pendingGain := none }
    bench := u.bench.resetPointer }

theorem cmdSelfTest_eq (s : State) : s.cmdSelfTest = s.clearedForTest.beginTest.accept := rfl

/-- Self-Test, with nothing in assembly and no stream read claimed, in either unit (R187, R202). -/
theorem exec_selfTest_of_idle {s : State} (ha : s.bench.assembly = .idle)
    (hr : ∀ left crc, s.bench.stream ≠ some { kind := .map left crc, words := [] }) (strap : Bool) :
    exec (.selfTest strap) s = .next (s.setStrap strap).clearedForTest.beginTest.accept := by
  have harrive : (s.setStrap strap).commandArrives = s.setStrap strap := commandArrives_of_idle ha hr
  rw [← cmdSelfTest_eq]
  exact congrArg (fun t => Host.Outcome.next t.cmdSelfTest) harrive

/-- The end of the run and the end of the stream do not touch each other, and neither touches the strap (R202). -/
theorem endRun_no_stream (s : State) (strap : Bool) (o : RunOutcome) (cause : RunCause) :
    State.endRun { s.setStrap strap with bench := { (s.setStrap strap).bench with stream := none } } o cause =
      { s.endRun o cause with
        bench := { (s.endRun o cause).bench with stream := none }
        startup := { s.startup with strap := strap } } := by
  cases hc : s.runs.active with
  | none => rw [endRun_of_none hc, endRun_of_none (by exact hc)]; rfl
  | some c => rw [endRun_of_run hc, endRun_of_run (by exact hc)]; rfl

/-- What Self-Test clears, with the run's conclusion taken in the state before it (R120, R122, R202). -/
theorem clearedForTest_setStrap (s : State) (strap : Bool) :
    let u := s.endRun .aborted .selfTest
    (s.setStrap strap).clearedForTest = { u with
      runs := { u.runs with queue := [] }
      sweep := none
      capture := { s.capture with fifo := [] }
      profiles := updateProfiles u.profiles fun _ p => { p with pendingGain := none }
      bench := { u.bench with stream := none, pointer := windowStart s.bench.window s.bench.order }
      startup := { s.startup with strap := strap } } := by
  intro u
  have hcapture : u.capture = s.capture := s.endRun_capture ..
  have hwindow : u.bench.window = s.bench.window := s.endRun_bench_window ..
  have horder : u.bench.order = s.bench.order := s.endRun_bench_order ..
  rw [← hcapture, ← hwindow, ← horder, State.clearedForTest, endRun_no_stream]
  rfl

/-- The Start-up Unit as a test begins: the strap read, the unit Starting and the pair watch afresh (R199, R200; log 18,
log 32). -/
def Startup.testBegun (u : Startup) : Startup :=
  Startup.watch { u with unitState := .starting, unitNo := unitOfStrap u.strap, phase := .memoryTest, powerOnTest := false }
    u.strap u.presence (decide (u.unitNo = unitOfStrap u.strap) && u.presLine)

theorem beginTest_of_no_fault {s : State} (hf : s.startup.memoryFault = false) :
    s.beginTest = { s with startup := s.startup.testBegun } := if_neg (by rw [hf]; exact nofun)

/-- After a memory fault the named memories take their power-on values as the test begins (R197). -/
theorem beginTest_of_fault {s : State} (hf : s.startup.memoryFault = true) :
    s.beginTest = { s with
      startup := s.startup.testBegun
      map := State.reset.map
      runs := { s.runs with queue := [], results := [] }
      exclusions := []
      perms := State.reset.perms
      profiles := State.reset.profiles } := if_pos hf

/-- Settles O50: the command is what it clears and the beginning of the test, by what the last memory test found. -/
theorem selfTestEffects : Obligations.SelfTestEffects := by
  unfold Obligations.SelfTestEffects
  intro s strap ha hr
  have hfault : (s.setStrap strap).clearedForTest.startup.memoryFault = s.startup.memoryFault := by
    rw [clearedForTest_setStrap]
  refine ⟨s.endRun .aborted .selfTest, fun hn => endRun_of_none hn .., fun c hc => endRun_of_run hc .., _,
    updateProfiles (s.endRun .aborted .selfTest).profiles fun _ p => { p with pendingGain := none },
    fun h => PerHead.get_ofFn _ h, rfl, fun hf => ?_, fun hf => ?_⟩
  · rw [exec_selfTest_of_idle ha hr, beginTest_of_no_fault (hfault.trans hf), clearedForTest_setStrap]
    rfl
  · rw [exec_selfTest_of_idle ha hr, beginTest_of_fault (hfault.trans hf), clearedForTest_setStrap]
    rfl

end Sys2Proof.Machine
end

section
/-! The Feed-Forward Server: how a request is judged, how a reply is composed, and how its words are taken (R123 to R137). -/

namespace Sys2Proof.Machine

/-! ### A request word (R123, R125, R127, R128) -/

theorem exec_ffRequest (w : Word) (s : State) : exec (.ffRequest w) s = .next (s.takeRequest w) := rfl

/-- A request that goes into service is answered in the first of cases 1 to 4 that applies, and is Forming otherwise (R128). -/
theorem serveRequest_eq (s : State) (q : FFRequest) : s.serveRequest q = s.setServer
    (if s.startup.unitState ≠ .ready then .replying (plainReply q .notReady) false
    else if s.settings.feedForward = false then .replying (plainReply q .hold) false
    else if s.settings.headsInstalled ≤ q.head.val then .replying (plainReply q .unconfigured) false
    else if s.settings.wedges ≤ q.wedge then .replying (plainReply q .outOfRange) false
    else .forming q) := by
  unfold State.serveRequest State.judgeRequest
  split_ifs <;> rfl

/-- The port as a request word leaves it, before the request is served: nothing outstanding, the mark set and no word counted
(R125, R127). -/
def State.withdrawn (s : State) : State :=
  { s with ff := { s.ff with server := .idle, portMark := true, wordsTaken := 0 } }

theorem takeRequest_of_other {s : State} {w : Word} (h : w.toNat / 4096 / 8 ≠ s.startup.unitNo.val) :
    s.takeRequest w = s.withdrawn :=
  if_neg (by rwa [unitOf, globalHead_eq])

theorem takeRequest_of_own {s : State} {w : Word} (h : w.toNat / 4096 / 8 = s.startup.unitNo.val) :
    s.takeRequest w = s.withdrawn.serveRequest
      { head := Fin.ofNat 8 (w.toNat / 4096), wedge := w.toNat / 8 % 512, replaced := s.ff.portMark } := by
  rw [← globalHead_eq, ← wedgeField_eq]
  exact if_pos (by rwa [unitOf, globalHead_eq])

/-- Settles O44: a request for another unit's head ends with what it withdraws, and one for this unit's is served at once. -/
theorem requestsJudged : Obligations.RequestsJudged := by
  unfold Obligations.RequestsJudged
  intro s w head wedge plain
  rw [exec_ffRequest]
  by_cases hunit : w.toNat / 4096 / 8 = s.startup.unitNo.val
  · rw [takeRequest_of_own hunit, serveRequest_eq, if_neg (not_not.mpr hunit)]
    rfl
  · rw [takeRequest_of_other hunit, if_pos hunit]
    rfl

/-! ### The judgement at the grant (R128, R129) -/

theorem judgeRequest_of_not_ready {s : State} {q : FFRequest} (hr : s.startup.unitState ≠ .ready) :
    s.judgeRequest q = some .notReady := if_pos hr

theorem judgeRequest_of_off {s : State} {q : FFRequest} (hr : s.startup.unitState = .ready)
    (hf : s.settings.feedForward = false) : s.judgeRequest q = some .hold := by
  simp [State.judgeRequest, hr, hf]

theorem judgeRequest_of_unconfigured {s : State} {q : FFRequest} (hr : s.startup.unitState = .ready)
    (hf : s.settings.feedForward = true) (hh : s.settings.headsInstalled ≤ q.head.val) :
    s.judgeRequest q = some .unconfigured := by
  simp [State.judgeRequest, hr, hf, hh]

theorem judgeRequest_of_outOfRange {s : State} {q : FFRequest} (hr : s.startup.unitState = .ready)
    (hf : s.settings.feedForward = true) (hh : q.head.val < s.settings.headsInstalled) (hw : s.settings.wedges ≤ q.wedge) :
    s.judgeRequest q = some .outOfRange := by
  simp [State.judgeRequest, hr, hf, hh.not_ge, hw]

/-- Case 5: the reply comes from the map (R128, R129). -/
theorem judgeRequest_of_served {s : State} {q : FFRequest} (hr : s.startup.unitState = .ready)
    (hf : s.settings.feedForward = true) (hh : q.head.val < s.settings.headsInstalled) (hw : q.wedge < s.settings.wedges) :
    s.judgeRequest q = none := by
  simp [State.judgeRequest, hr, hf, hh.not_ge, hw.not_ge]

/-- The granted operation on a request to which one of cases 1 to 4 has come to apply (R129). -/
theorem exec_ffOperation_of_judged {s : State} {q : FFRequest} (hq : s.ff.server = .forming q) {reason : Reason}
    (hj : s.judgeRequest q = some reason) :
    exec .ffOperation s = .next (s.setServer (.replying (plainReply q reason) false)) := by
  show Host.Outcome.next s.formReply = _
  simp only [State.formReply, hq, hj]

/-- The granted operation on a request that is answered from the map (R129). -/
theorem exec_ffOperation_of_served {s : State} {q : FFRequest} (hq : s.ff.server = .forming q)
    (hj : s.judgeRequest q = none) :
    exec .ffOperation s = .next (s.setServer (.replying (s.composeReply q) false)) := by
  show Host.Outcome.next s.formReply = _
  simp only [State.formReply, hq, hj]

/-! ### The base value (R131 to R133) -/

/-- No search finds a wedge where every wedge of the head is Excluded (R133). -/
theorem firstGood_of_all_excluded {s : State} {h : Head} {ws : List Nat} (hn : ∀ w ∈ ws, (s.cell h w).state = .excluded) :
    s.firstGood h ws = none :=
  List.find?_eq_none.mpr fun w hw => by simp [hn w hw]

theorem lt_of_mem_ringBefore {W t w : Nat} (hW : 0 < W) (hw : w ∈ ringBefore W t) : w < W := by
  obtain ⟨i, -, rfl⟩ := List.mem_map.mp hw
  exact Nat.mod_lt _ hW

/-- The search before the target stops at the nearest good wedge (R132). -/
theorem firstGood_ringBefore {s : State} {h : Head} {W t i : Nat} (hi : 1 ≤ i) (hW : i < W)
    (hgood : (s.cell h ((t + W - i) % W)).state ≠ .excluded)
    (hnear : ∀ k, 1 ≤ k → k < i → (s.cell h ((t + W - k) % W)).state = .excluded) :
    s.firstGood h (ringBefore W t) = some ((t + W - i) % W) :=
  find_first_good (fun k => (t + W - k) % W) _ (W - 1) i hi (by omega) (decide_eq_true hgood)
    fun k h1 hk => decide_eq_false (not_not.mpr (hnear k h1 hk))

/-- The search after the target stops at the nearest good wedge (R132). -/
theorem firstGood_ringAfter {s : State} {h : Head} {W t j : Nat} (hj : 1 ≤ j) (hW : j < W)
    (hgood : (s.cell h ((t + j) % W)).state ≠ .excluded)
    (hnear : ∀ k, 1 ≤ k → k < j → (s.cell h ((t + k) % W)).state = .excluded) :
    s.firstGood h (ringAfter W t) = some ((t + j) % W) :=
  find_first_good (fun k => (t + k) % W) _ (W - 1) j hj (by omega) (decide_eq_true hgood)
    fun k h1 hk => decide_eq_false (not_not.mpr (hnear k h1 hk))

theorem interpolate_of_found {s : State} {h : Head} {t b a : Nat}
    (hb : s.firstGood h (ringBefore s.settings.wedges t) = some b)
    (ha : s.firstGood h (ringAfter s.settings.wedges t) = some a) :
    s.interpolate h t = rounded ((s.cell h b).published + (s.cell h a).published) 2 := by
  simp only [State.interpolate, hb, ha]

/-- The base value is 0 where every wedge of the head is Excluded (R133). -/
theorem interpolate_of_all_excluded {s : State} {h : Head} (t : Nat) (hW : 0 < s.settings.wedges)
    (hn : ∀ w, w < s.settings.wedges → (s.cell h w).state = .excluded) : s.interpolate h t = 0 := by
  have hb : s.firstGood h (ringBefore s.settings.wedges t) = none :=
    firstGood_of_all_excluded fun w hw => hn w (lt_of_mem_ringBefore hW hw)
  simp only [State.interpolate, hb]

theorem baseValue_of_good {s : State} {h : Head} {t : Nat} (hg : (s.cell h t).state ≠ .excluded) :
    s.baseValue h t = ((s.cell h t).published, .normal) := if_neg hg

theorem baseValue_of_excluded {s : State} {h : Head} {t : Nat} (he : (s.cell h t).state = .excluded) :
    s.baseValue h t = (s.interpolate h t, .interpolated) := if_pos he

/-! ### The reply composed (R130, R134 to R137) -/

/-- Settles O45: the judgement is made afresh, and where it calls for the map the reply is composed from the base value, the
injection and the head's profile. -/
theorem replyComposed : Obligations.ReplyComposed := by
  unfold Obligations.ReplyComposed
  intro s q hq W plain
  refine ⟨fun hr => ?notReady, fun hr hf => ?hold, fun hr hf hh => ?unconfigured, fun hr hf hh hw => ?outOfRange,
    fun hr hf hh hw => ?served⟩
  case notReady => exact exec_ffOperation_of_judged hq (judgeRequest_of_not_ready hr)
  case hold => exact exec_ffOperation_of_judged hq (judgeRequest_of_off hr hf)
  case unconfigured => exact exec_ffOperation_of_judged hq (judgeRequest_of_unconfigured hr hf hh)
  case outOfRange => exact exec_ffOperation_of_judged hq (judgeRequest_of_outOfRange hr hf hh hw)
  case served =>
    have hreply := exec_ffOperation_of_served hq (judgeRequest_of_served hr hf hh hw)
    obtain ⟨hstep, hinjecting⟩ := injection_eq s q.head
    rcases hb : s.baseValue q.head (targetWedge s.settings.wedges (s.profile q.head).lead q.wedge) with ⟨base, reason⟩
    refine ⟨base, (s.injection q.head).getD 0, reason, ?composed, hstep, fun hgood => ?good, fun hbad => ?excluded⟩
    case composed =>
      simp only [hreply, State.composeReply, hinjecting, hb]
      rfl
    case good => exact Prod.mk.inj (hb.symm.trans (baseValue_of_good hgood))
    case excluded =>
      obtain ⟨hbase, hreason⟩ := Prod.mk.inj (hb.symm.trans (baseValue_of_excluded (not_not.mp hbad)))
      refine ⟨hreason, fun hall => ?_, fun i j hi hiW hj hjW hbefore hnearB hafter hnearA => ?_⟩
      · exact hbase.trans (interpolate_of_all_excluded _ (Nat.zero_lt_of_lt hw) fun w hwW => not_not.mp (hall w hwW))
      · have foundBefore := firstGood_ringBefore hi hiW hbefore fun k h1 hk => not_not.mp (hnearB k h1 hk)
        have foundAfter := firstGood_ringAfter hj hjW hafter fun k h1 hk => not_not.mp (hnearA k h1 hk)
        exact hbase.trans (interpolate_of_found foundBefore foundAfter)

/-! ### The reply strobe and the reply words (R126, R127, R204, 12.4) -/

theorem exec_ffReplyStrobe (other : Bool) (s : State) : exec (.ffReplyStrobe other) s = .next (s.replyStrobe other) := rfl

/-- The port mark clears with the second word, which is the one taken after one has been (R127). -/
theorem countWord_eq (f : FFServer) : f.countWord =
    { f with wordsTaken := f.wordsTaken + 1, portMark := if f.wordsTaken = 1 then false else f.portMark } := by
  simp only [FFServer.countWord, Nat.reduceEqDiff]

theorem replyStrobe_of_first {s : State} {r : FFReply} (h : s.ff.server = .replying r false) (other : Bool) :
    s.replyStrobe other = { s with ff := { s.ff.countWord with server := .replying r true, out := some r.word1 } } := by
  simp only [State.replyStrobe, h]

theorem replyStrobe_of_second {s : State} {r : FFReply} (h : s.ff.server = .replying r true) (other : Bool) :
    s.replyStrobe other = { s with ff := { s.ff.countWord with server := .idle, out := some r.word2 } } := by
  simp only [State.replyStrobe, h]

/-- With no reply in this unit the strobe takes the other unit's word or none (R126, R127). -/
theorem replyStrobe_of_not_replying {s : State} (h : ∀ r taken, s.ff.server ≠ .replying r taken) (other : Bool) :
    s.replyStrobe other = { s with ff := { (if other then s.ff.countWord else s.ff) with
      out := if other then none else some 0 } } := by
  unfold State.replyStrobe
  split
  next r hr => exact absurd hr (h r false)
  next r hr => exact absurd hr (h r true)
  all_goals cases other <;> rfl

theorem Reason.code_lt (r : Reason) : r.code < 16 := by
  cases r <;> decide

/-- The flags of reply word 2, bits 3..0 (12.4). -/
def FFReply.flags (r : FFReply) : Nat := 2 * boolNat r.replaced + boolNat r.injecting

theorem FFReply.flags_lt (r : FFReply) : r.flags < 16 := by
  unfold FFReply.flags boolNat
  split_ifs <;> decide

/-- Reply word 2 in the form `reply_word_fields` speaks of. -/
theorem FFReply.word2_eq (r : FFReply) : r.word2 = wordOf ((BitVec.ofInt 12 r.offset).toNat * 16 + r.flags) := by
  rw [FFReply.word2, FFReply.flags, Nat.add_assoc]

/-- The four low bits of a word are those of its remainder by 16. -/
theorem getLsbD_of_lt_four (w : Word) {i : Nat} (hi : i < 4) : w.getLsbD i = (w.toNat % 16).testBit i := by
  have hbit := Nat.testBit_mod_two_pow w.toNat 4 i
  rw [decide_eq_true hi, Bool.true_and, BitVec.testBit_toNat] at hbit
  exact hbit.symm

theorem FFReply.testBit_flags (r : FFReply) : r.flags.testBit 3 = false ∧ r.flags.testBit 2 = false
    ∧ r.flags.testBit 1 = r.replaced ∧ r.flags.testBit 0 = r.injecting := by
  unfold FFReply.flags
  cases r.replaced <;> cases r.injecting <;> decide

/-- Settles O46: a strobe is one of three cases by what the server holds, and a reply word is its signed field over four low
bits. -/
theorem replyStrobes : Obligations.ReplyStrobes := by
  unfold Obligations.ReplyStrobes
  refine ⟨fun s other => ?strobe, fun r hvalue hoffset => ?words⟩
  case strobe =>
    rw [← countWord_eq, exec_ffReplyStrobe]
    exact ⟨fun r h => congrArg _ (replyStrobe_of_first h other), fun r h => congrArg _ (replyStrobe_of_second h other),
      fun h => congrArg _ (replyStrobe_of_not_replying h other)⟩
  case words =>
    obtain ⟨value, code⟩ := reply_word_fields r.value hvalue r.reason.code r.reason.code_lt
    obtain ⟨offset, flags⟩ := reply_word_fields r.offset hoffset r.flags r.flags_lt
    have bit {i : Nat} (hi : i < 4) : r.word2.getLsbD i = r.flags.testBit i := by
      rw [getLsbD_of_lt_four _ hi, r.word2_eq, flags]
    obtain ⟨bit3, bit2, replaced, injecting⟩ := r.testBit_flags
    refine ⟨value, code.trans ?_, r.word2_eq ▸ offset, (bit (by decide)).trans bit3, (bit (by decide)).trans bit2,
      (bit (by decide)).trans replaced, (bit (by decide)).trans injecting⟩
    cases r.reason <;> rfl

end Sys2Proof.Machine
end

section
/-! The device's law of the map over every step (R24 to R28, R97, R143, R159, R161). -/

namespace Sys2Proof.Machine

/-- Settles O12: every operation of a step keeps the law, which does not look at the queue. -/
theorem stepKeepsMapLaw : Obligations.StepKeepsMapLaw := by
  unfold Obligations.StepKeepsMapLaw
  intro s t hm ht
  exact step_keeps (P := State.MapLaw) (fun _ _ h => { h with }) (fun ho h => ho.mapLaw h) hm ht

end Sys2Proof.Machine
end

section
/-! The commands of the Exclusion Table and the Permission Table, and the auto-exclusion (R144 to R149, R154). -/

namespace Sys2Proof.Machine

theorem configured_iff (s : State) (h : Head) (w : Nat) :
    s.configured h w = true ↔ h.val < s.settings.headsInstalled ∧ w < s.settings.wedges := by
  simp [State.configured]

/-- A head parameter names a head by its number. -/
theorem eq_ofNat_iff {n : Nat} (hn : n < 8) (k : Head) : k = Fin.ofNat 8 n ↔ k.val = n := by
  rw [Fin.ext_iff, Fin.val_ofNat, Nat.mod_eq_of_lt hn]

theorem get_headSet_ofWord (w : Word) (h : Head) : (HeadSet.ofWord w).get h = w.getLsbD h.val := PerHead.get_ofFn _ h

/-! ### Exclude (R144) -/

section Exclude
variable {s : State} {h : Head} {w : Nat}

theorem excludeCell_of_unconfigured (hc : s.configured h w = false) : s.excludeCell h w = s.refuse .badParameter := if_pos hc

/-- A cell that is in the table stays as it is (R144). -/
theorem excludeCell_of_mem (hc : s.configured h w = true) (hx : (h, w) ∈ s.exclusions) : s.excludeCell h w = s.accept := by
  rw [State.excludeCell, if_neg (by simp [hc]), if_pos (by simpa using hx)]

/-- A configured cell that is not in the table is entered unless the table is full (R144). -/
theorem excludeCell_of_new (hc : s.configured h w = true) (hx : (h, w) ∉ s.exclusions) : s.excludeCell h w =
    if 32 ≤ s.exclusions.length then (s.refuse .tableFull).raise .exclusionFull else (s.enterExclusion h w).accept := by
  rw [State.excludeCell, if_neg (by simp [hc]), if_neg (by simpa using hx)]
  rfl

theorem exec_excludeWedge_of_open (ho : s.LinkOpen) (head wedge : Word) : exec (.excludeWedge head wedge) s = .next
    ((headParam head).elim (s.refuse .badParameter) fun k => s.excludeCell k wedge.toNat) := by
  have hp : s.perform .excludeWedge [head, wedge] = s.cmdExclude head wedge := rfl
  rw [exec_of_open ho (i := .excludeWedge head wedge) rfl nofun, hp, State.cmdExclude, judged_of_open ho]
  cases headParam head <;> rfl

/-- Exclude with the numbers of a head and a wedge (R144). -/
theorem exec_excludeWedge_of_names (ho : s.LinkOpen) {head wedge : Word} (hh : head.toNat = h.val) (hw : wedge.toNat = w) :
    exec (.excludeWedge head wedge) s = .next (s.excludeCell h w) := by
  have hlt : head.toNat < 8 := hh ▸ h.isLt
  rw [exec_excludeWedge_of_open ho, headParam_of_lt hlt, Option.elim_some, ← (eq_ofNat_iff hlt h).mpr hh.symm, hw]

/-- Exclude is refused for a cell that is not configured, a head past 7 included (R144). -/
theorem exec_excludeWedge_of_unconfigured (ho : s.LinkOpen) {head wedge : Word}
    (hc : s.settings.headsInstalled ≤ head.toNat ∨ s.settings.wedges ≤ wedge.toNat) :
    exec (.excludeWedge head wedge) s = .next (s.refuse .badParameter) := by
  by_cases hh : 8 ≤ head.toNat
  · rw [exec_excludeWedge_of_open ho, headParam_of_ge hh, Option.elim_none]
  · have hval : head.toNat = (Fin.ofNat 8 head.toNat).val := ((eq_ofNat_iff (Nat.lt_of_not_le hh) _).mp rfl).symm
    rw [exec_excludeWedge_of_names ho hval rfl, excludeCell_of_unconfigured]
    rw [← Bool.not_eq_true, configured_iff, ← hval]
    omega

end Exclude

/-! ### The auto-exclusion (R149) -/

/-- The state with the request that is next in turn taken, and no cell entered yet. -/
def State.autoTaken (s : State) : State :=
  { s with autoRequests := s.autoRequests.eraseIdx s.autoNext, autoOrder := s.autoOrder.tail }

/-- What becomes of the request that is next in turn (R149; log 13). -/
theorem takeAutoExclusion_of_request {s : State} {h : Head} {w : Nat} (hr : s.autoRequests[s.autoNext]? = some (h, w)) :
    ((h, w) ∈ s.exclusions ∨ s.configured h w = false) ∧ s.takeAutoExclusion = s.autoTaken
      ∨ (h, w) ∉ s.exclusions ∧ s.configured h w = true ∧ s.takeAutoExclusion =
        if 32 ≤ s.exclusions.length then s.autoTaken.raise .exclusionFull else s.autoTaken.enterExclusion h w := by
  rcases s.takeAutoExclusion_cases with ⟨hnil, -⟩ | ⟨k, v, hk, hcases⟩
  · rw [hnil] at hr
    cases hr
  · obtain ⟨rfl, rfl⟩ := Prod.mk.inj (Option.some.inj (hk.symm.trans hr))
    exact hcases

section Taken
variable {s : State} {h : Head} {w : Nat} (hr : s.autoRequests[s.autoNext]? = some (h, w))
include hr

/-- A request of a cell that the table holds, or that is not configured, changes nothing else (R149; log 13). -/
theorem exec_autoExclusion_of_dropped (hd : (h, w) ∈ s.exclusions ∨ s.configured h w = false) :
    exec .autoExclusion s = .next s.autoTaken := by
  rcases takeAutoExclusion_of_request hr with ⟨-, ht⟩ | ⟨hx, hc, -⟩
  · exact congrArg Host.Outcome.next ht
  · rcases hd with hd | hd
    · exact absurd hd hx
    · exact absurd (hd.symm.trans hc) nofun

/-- A request of a configured cell that is not in the table enters it unless the table is full (R149). -/
theorem exec_autoExclusion_of_new (hx : (h, w) ∉ s.exclusions) (hc : s.configured h w = true) :
    exec .autoExclusion s = .next
      (if 32 ≤ s.exclusions.length then s.autoTaken.raise .exclusionFull else s.autoTaken.enterExclusion h w) := by
  rcases takeAutoExclusion_of_request hr with ⟨hd | hd, -⟩ | ⟨-, -, ht⟩
  · exact absurd hd hx
  · exact absurd (hd.symm.trans hc) nofun
  · exact congrArg Host.Outcome.next ht

end Taken

/-! ### Include and Clear Exclusions (R146, R147) -/

/-- A cell as the removal of its entry, where the table holds one, leaves it (R146, R147). -/
def State.restore (s : State) (h : Head) (w : Nat) (c : Cell) : Cell :=
  if s.exclusions.contains (h, w) then c.included else c

theorem restore_of_mem {s : State} {h : Head} {w : Nat} (hx : (h, w) ∈ s.exclusions) (c : Cell) : s.restore h w c = c.included :=
  if_pos (by simpa using hx)

theorem restore_of_not_mem {s : State} {h : Head} {w : Nat} (hx : (h, w) ∉ s.exclusions) (c : Cell) : s.restore h w c = c :=
  if_neg (by simpa using hx)

section Include
variable {s : State} (ho : s.LinkOpen)
include ho

theorem exec_includeWedge_of_open (head wedge : Word) : exec (.includeWedge head wedge) s = .next
    ((headParam head).elim (s.refuse .notFound) fun k =>
      if (k, wedge.toNat) ∈ s.exclusions then State.accept { s with
        exclusions := s.exclusions.filter fun e => decide (e ≠ (k, wedge.toNat))
        map := modifyCellOf s.map k wedge.toNat Cell.included }
      else s.refuse .notFound) := by
  have hp : s.perform .includeWedge [head, wedge] = s.cmdInclude head wedge := rfl
  rw [exec_of_open ho (i := .includeWedge head wedge) rfl nofun, hp, State.cmdInclude, judged_of_open ho]
  cases headParam head with
  | none => rfl
  | some k => simp only [List.contains_eq_mem, decide_eq_true_eq, Option.elim_some]

/-- Include finds nothing where the table does not hold the entry, as it never does for a head past 7 (R146). -/
theorem exec_includeWedge_of_absent {head wedge : Word}
    (hx : 8 ≤ head.toNat ∨ (Fin.ofNat 8 head.toNat, wedge.toNat) ∉ s.exclusions) :
    exec (.includeWedge head wedge) s = .next (s.refuse .notFound) := by
  rw [exec_includeWedge_of_open ho]
  by_cases hh : 8 ≤ head.toNat
  · rw [headParam_of_ge hh, Option.elim_none]
  · rw [headParam_of_lt (Nat.lt_of_not_le hh), Option.elim_some, if_neg (hx.resolve_left hh)]

/-- Include removes an entry and restores its cell (R146). -/
theorem exec_includeWedge_of_mem {head wedge : Word} (hh : head.toNat < 8)
    (hx : (Fin.ofNat 8 head.toNat, wedge.toNat) ∈ s.exclusions) :
    exec (.includeWedge head wedge) s = .next (State.accept { s with
      map := modifyCellOf s.map (Fin.ofNat 8 head.toNat) wedge.toNat Cell.included
      exclusions := s.exclusions.filter fun e => e != (Fin.ofNat 8 head.toNat, wedge.toNat) }) := by
  have hne : (fun e : Head × Nat => e != (Fin.ofNat 8 head.toNat, wedge.toNat))
      = fun e => decide (e ≠ (Fin.ofNat 8 head.toNat, wedge.toNat)) :=
    funext fun e => Bool.eq_iff_iff.mpr (by simp)
  rw [exec_includeWedge_of_open ho, headParam_of_lt hh, Option.elim_some, if_pos hx, hne]

theorem exec_clearExclusions_of_open (heads : Word) : exec (.clearExclusions heads) s = .next (State.accept { s with
    map := updateRows s.map (HeadSet.ofWord heads).get s.restore
    exclusions := s.exclusions.filter fun e => !heads.getLsbD e.1.val }) := by
  have hp : s.perform .clearExclusions [heads] = s.cmdClearExclusions heads := rfl
  have hget : (fun e : Head × Nat => !heads.getLsbD e.1.val) = fun e => !(HeadSet.ofWord heads).get e.1 :=
    funext fun e => congrArg _ (get_headSet_ofWord heads e.1).symm
  rw [exec_of_open ho (i := .clearExclusions heads) rfl nofun, hp, State.cmdClearExclusions, judged_of_open ho, hget]
  rfl

end Include

/-- The cells that Clear Exclusions restores are those of the entries it removes (R147). -/
theorem cellAt_cleared {s : State} (hm : s.MapLaw) (heads : Word) (k : Head) (v : Nat) :
    cellAt (updateRows s.map (HeadSet.ofWord heads).get s.restore) k v
      = if heads.getLsbD k.val = true ∧ (k, v) ∈ s.exclusions then (s.cell k v).included else s.cell k v := by
  rw [cellAt_updateRows hm _ s.restore fun _ _ _ => ite_self _, get_headSet_ofWord, ite_and]
  by_cases hx : (k, v) ∈ s.exclusions
  · rw [restore_of_mem hx, if_pos hx]
  · rw [restore_of_not_mem hx, if_neg hx]

/-! ### Set Permissions (R154) -/

/-- The marks of the writer whose code is `code`, after Set Permissions has named a writer. -/
def marksFor (writer code heads fields : Word) (t : PerHead Permission) : PerHead Permission :=
  if writer = code then replaceMarks t (HeadSet.ofWord heads) { wc := fields.getLsbD 0, cs := fields.getLsbD 1 } else t

theorem get_marksFor (writer code heads fields : Word) (t : PerHead Permission) (h : Head) :
    (marksFor writer code heads fields t).get h =
      if writer = code ∧ heads.getLsbD h.val = true then { wc := fields.getLsbD 0, cs := fields.getLsbD 1 } else t.get h := by
  unfold marksFor
  by_cases hw : writer = code
  · simp [hw, replaceMarks, get_headSet_ofWord]
  · simp [hw]

theorem exec_setPermissions_of_open {s : State} (ho : s.LinkOpen) (writer heads fields : Word) :
    exec (.setPermissions writer heads fields) s = .next (if 3 ≤ writer.toNat then s.refuse .badParameter
      else State.accept { s with perms :=
        { bench := marksFor writer 0 heads fields s.perms.bench
          learning := marksFor writer 1 heads fields s.perms.learning
          sweep := marksFor writer 2 heads fields s.perms.sweep } }) := by
  have hp : s.perform .setPermissions [writer, heads, fields] = s.cmdSetPermissions writer heads fields := rfl
  rw [exec_of_open ho (i := .setPermissions writer heads fields) rfl nofun, hp, State.cmdSetPermissions, judged_of_open ho]
  by_cases hw : 3 ≤ writer.toNat
  · obtain ⟨n, hn⟩ := Nat.exists_eq_add_of_le' hw
    rw [if_pos hw, hn]
    rfl
  · have hwriter : writer = 0 ∨ writer = 1 ∨ writer = 2 := by bv_omega
    rw [if_neg hw]
    rcases hwriter with rfl | rfl | rfl
    · rfl
    · rfl
    · rfl

/-! ### The statement -/

/-- Settles O60: the requests by the one next in turn, then command by command. -/
theorem exclusionsAndPermissions : Obligations.ExclusionsAndPermissions := by
  unfold Obligations.ExclusionsAndPermissions
  intro s hm i
  have hi : i = s.autoNext := by
    unfold i State.autoNext
    cases s.autoOrder <;> rfl
  clear_value i
  subst hi
  refine ⟨fun h w hx hc hlt => ?entered, fun h w hr => ⟨exec_autoExclusion_of_dropped hr, fun hx hc hfull => ?full⟩,
    fun ho => ⟨fun head wedge => ⟨exec_excludeWedge_of_unconfigured ho, fun hh hw => ?excluded,
      exec_includeWedge_of_absent ho, fun hh hx => ?included⟩, fun heads => ?cleared, fun writer heads fields => ?permissions⟩⟩
  case entered =>
    refine ⟨(s.enterExclusion h w).map, (s.enterExclusion h w).exclusions, fun hr => ?_, fun head wedge hh hw ho => ?_,
      fun e => mem_insertExclusion _ e _, length_insertExclusion _ _ hx, cell_enterExclusion hm.canonical h w⟩
    · exact (exec_autoExclusion_of_new hr hx hc).trans (congrArg _ (if_neg hlt.not_ge))
    · rw [exec_excludeWedge_of_names ho hh hw, excludeCell_of_new hc hx, if_neg hlt.not_ge]
      rfl
  case full => exact (exec_autoExclusion_of_new hr hx hc).trans (congrArg _ (if_pos hfull))
  case excluded =>
    obtain ⟨-, hinstalled, -⟩ := hm.geometry
    have hval : head.toNat = (Fin.ofNat 8 head.toNat).val := ((eq_ofNat_iff (hh.trans_le hinstalled) _).mp rfl).symm
    have hc : s.configured (Fin.ofNat 8 head.toNat) wedge.toNat = true := (configured_iff ..).mpr ⟨hval ▸ hh, hw⟩
    rw [exec_excludeWedge_of_names ho hval rfl]
    exact ⟨fun hx => congrArg _ (excludeCell_of_mem hc hx),
      fun hx hfull => congrArg _ ((excludeCell_of_new hc hx).trans (if_pos hfull))⟩
  case included =>
    refine ⟨_, exec_includeWedge_of_mem ho hh hx, fun k v => ?_⟩
    refine (get_modifyCellOf hm.canonical _ _ _ k v).trans
      (ite_congr (propext (and_congr_left' (eq_ofNat_iff hh k))) (fun ⟨hk, hv⟩ => ?_) fun _ => rfl)
    rw [(eq_ofNat_iff hh k).mpr hk, hv]
    rfl
  case cleared => exact ⟨_, exec_clearExclusions_of_open ho heads, cellAt_cleared hm heads⟩
  case permissions =>
    refine ⟨fun hw => (exec_setPermissions_of_open ho ..).trans (congrArg _ (if_pos hw)), fun hw =>
      ⟨_, _, _, (exec_setPermissions_of_open ho ..).trans (congrArg _ (if_neg (by omega))), fun h => ?_⟩⟩
    exact ⟨get_marksFor .., get_marksFor .., get_marksFor ..⟩

end Sys2Proof.Machine
end

section
/-! The CRC of the link (R174). -/

namespace Sys2Proof.Machine

/-- The bits of a word from `lo` up, as a shorter word, are those of its number divided by a power of two. -/
theorem extractLsb'_eq_ofNat {n : Nat} (x : BitVec n) (lo len : Nat) :
    x.extractLsb' lo len = BitVec.ofNat len (x.toNat / 2 ^ lo) := by
  rw [BitVec.extractLsb', Nat.shiftRight_eq_div_pow]

/-- The CRC register is shifted, and its polynomial added where the bit shifted out is 1 (R174). -/
theorem crcStep_eq (r : BitVec 32) :
    crcStep r = if r.toNat % 2 = 1 then (r >>> 1) ^^^ 0xEDB88320#32 else r >>> 1 := by
  have hbit : r.getLsbD 0 = true ↔ r.toNat % 2 = 1 := by
    rw [BitVec.getLsbD, Nat.testBit_zero, decide_eq_true_iff]
  exact if_congr hbit rfl rfl

/-- A word enters the CRC with its low byte first (R174). -/
theorem crcWord_eq (r : BitVec 32) (w : Word) :
    crcWord r w = crcByte (crcByte r (BitVec.ofNat 8 w.toNat)) (BitVec.ofNat 8 (w.toNat / 256)) := by
  rw [crcWord, extractLsb'_eq_ofNat, extractLsb'_eq_ofNat, Nat.pow_zero, Nat.div_one, show 2 ^ 8 = 256 from rfl]

/-- The CRC travels as its complement's low word and then its high word (R174). -/
theorem crcWords_eq (r : BitVec 32) : crcWords r =
    [BitVec.ofNat 16 (r ^^^ 0xFFFFFFFF#32).toNat, BitVec.ofNat 16 ((r ^^^ 0xFFFFFFFF#32).toNat / 65536)] := by
  rw [crcWords, crcFinal, extractLsb'_eq_ofNat, extractLsb'_eq_ofNat, Nat.pow_zero, Nat.div_one, show 2 ^ 16 = 65536 from rfl]

/-- The check value of R174, over the characters "123456789". -/
theorem crcFinal_check_value :
    crcFinal ([0x31#8, 0x32#8, 0x33#8, 0x34#8, 0x35#8, 0x36#8, 0x37#8, 0x38#8, 0x39#8].foldl crcByte crcStart)
      = 0xCBF43926#32 := by
  simp [crcByte, crcStep, crcStart, crcFinal]

/-- Settles O9. The order of bits is the step's, the order of bytes that of `crcWord_eq`, the order of words that of
`crcWords_eq`. -/
theorem crcOfTheLink : Obligations.CrcOfTheLink := by
  unfold Obligations.CrcOfTheLink
  exact ⟨rfl, crcStep_eq, fun _ _ => rfl, crcWord_eq, crcWords_eq, crcFinal_check_value⟩

end Sys2Proof.Machine
end

section
/-! The words of the Return Queue: a step adds words behind them, and a select-0 read takes the oldest (R171, R179). -/

namespace Sys2Proof.Machine

/-- The Return Queue begins with the given words (R171). -/
def State.StartsWith (q : List Word) (s : State) : Prop := q <+: s.bench.returnQueue

namespace State.StartsWith
variable {q : List Word} {s : State}

theorem same {t : State} (hs : s.StartsWith q) (h : t.bench.returnQueue = s.bench.returnQueue) : t.StartsWith q := by
  rw [StartsWith, h]
  exact hs

/-! ### Streams -/

/-- A stream places its words behind those that stand in the Return Queue (R171). -/
theorem pump (hs : s.StartsWith q) : s.pump.StartsWith q := by
  have hbehind (ws : List Word) : q <+: s.bench.returnQueue ++ ws := hs.trans (List.prefix_append _ _)
  unfold State.pump
  split
  · exact hs
  dsimp only
  split
  · exact hbehind _
  split
  · exact hbehind _
  · exact hbehind _
  · split
    · split
      · exact hbehind _
      · exact (hbehind _).trans (List.prefix_append _ _)
    · exact hbehind _

/-- A readout places the words of its copy (R171). -/
theorem readout (hs : s.StartsWith q) (k : StreamKind) (ws : List Word) : (s.accept.startStream k ws).StartsWith q :=
  pump hs

theorem readStreamItem (hs : s.StartsWith q) (left : Option Nat) (crc : Option (BitVec 32)) :
    (s.readStreamItem left crc).StartsWith q := by
  unfold State.readStreamItem
  split
  · exact hs
  · exact pump hs

theorem completeStreamRead (hs : s.StartsWith q) : s.completeStreamRead.StartsWith q := by
  unfold State.completeStreamRead
  split
  · exact hs.readStreamItem _ _
  · exact hs

/-- An item read into the Return Queue stands behind its words (R170). -/
theorem placeItem (hs : s.StartsWith q) (p : Pointer) : (s.placeItem p).StartsWith q := by
  have hbehind : q <+: s.bench.returnQueue ++ roomFor s.bench.returnQueue (s.itemAt p) :=
    hs.trans (List.prefix_append _ _)
  unfold State.placeItem
  dsimp only
  split
  · exact hbehind
  · exact hbehind

/-! ### Commands -/

theorem judged (hs : s.StartsWith q) (own : State → State) (ho : (own s).StartsWith q) : (s.judged own).StartsWith q := by
  rcases judged_cases s own with ⟨o, h⟩ | h
  · rw [h]; exact hs
  · rw [h]; exact ho

theorem readMonitor (hs : s.StartsWith q) (head : Word) : (s.cmdReadMonitor head).StartsWith q := by
  refine hs.judged _ ?_
  split
  · exact hs
  · exact hs.readout _ _

theorem takeResult (hs : s.StartsWith q) : s.cmdTakeResult.StartsWith q := by
  refine hs.judged _ ?_
  split
  · exact hs
  · exact hs.readout _ _

theorem readMapItem (hs : s.StartsWith q) : s.cmdReadMapItem.StartsWith q := by
  rcases cmdReadMapItem_cases s with ⟨o, h⟩ | ⟨p, -, h⟩
  · rw [h]; exact hs
  · rw [h]; exact (hs.same (by simp)).placeItem p

end State.StartsWith

/-- No operation of a single word takes a word out of the Return Queue. -/
theorem wordsKeep_startsWith (q : List Word) : WordsKeep (State.StartsWith q) := by
  constructor
  case streamRead => exact fun s hs => hs.completeStreamRead
  case streamStart => exact fun s left crc hs => State.StartsWith.readStreamItem (s := s.accept) hs left crc
  case cmdReadMonitor => exact fun s head hs => hs.readMonitor head
  all_goals
    intros
    exact State.StartsWith.same ‹_› (by simp)

/-- Of the assembled commands Halt Stream and Unit Reset alone take words out of the Return Queue (R173, R194). -/
theorem State.StartsWith.perform {q : List Word} {s : State} (hs : s.StartsWith q) {code : CmdCode} (ps : List Word)
    (hh : code ≠ .haltStream) (hu : code ≠ .unitReset) : (s.perform code ps).StartsWith q := by
  cases ps with
  | cons p ps => exact (wordsKeep_startsWith q).performParams s code p ps hs
  | nil =>
    cases code
    case haltStream => exact absurd rfl hh
    case unitReset => exact absurd rfl hu
    case null => exact hs.same s.cmdNull_bench_returnQueue
    case selfTest => exact hs.same s.cmdSelfTest_bench_returnQueue
    case writeMap => exact hs.same s.cmdWriteMap_bench_returnQueue
    case writeMapContinue => exact hs.same s.cmdWriteMapContinue_bench_returnQueue
    case haltRun => exact hs.same s.cmdHaltRun_bench_returnQueue
    case feedForwardOn => exact hs.same s.cmdFeedForwardOn_bench_returnQueue
    case feedForwardOff => exact hs.same s.cmdFeedForwardOff_bench_returnQueue
    case readMapItem => exact hs.readMapItem
    case takeResult => exact hs.takeResult
    case readExclusions | readPermissions | readCaptureCounts | readIdentity | readSettings =>
      exact hs.judged _ (hs.readout _ _)
    all_goals exact hs

/-! ### Steps -/

/-- A command of the link other than Halt Stream and Unit Reset. -/
theorem startsWith_of_command {q : List Word} {i : Instr} {code : CmdCode} {ps : List Word} {s t : State}
    (hl : i.linkWords = some (code, ps)) (hh : code ≠ .haltStream) (hu : code ≠ .unitReset) (hs : s.StartsWith q)
    (he : exec i s = .next t) : t.StartsWith q := by
  have k := wordsKeep_startsWith q
  by_cases hc : code = .selfTest
  · subst hc
    cases i <;> simp only [Instr.linkWords, reduceCtorEq, Option.some.injEq, Prod.mk.injEq, false_and] at hl
    case selfTest x =>
      cases he
      have harrived : (s.setStrap x).commandArrives.StartsWith q := k.commandArrives _ hs
      exact harrived.same (State.cmdSelfTest_bench_returnQueue _)
  · rw [exec_command hl hc] at he
    cases he
    exact k.command s code _ (fun _ hs => hs.perform ps hh hu) hs

theorem eq_haltStream_of_linkWords {i : Instr} {ps : List Word} (hl : i.linkWords = some (.haltStream, ps)) :
    i = .haltStream := by
  cases i <;> simp [Instr.linkWords] at hl ⊢

theorem eq_unitReset_of_linkWords {i : Instr} {ps : List Word} (hl : i.linkWords = some (.unitReset, ps)) :
    i = .unitReset := by
  cases i <;> simp [Instr.linkWords] at hl ⊢

/-- A step other than the three that empty the Return Queue and the select-0 read leaves its words in front (R171). -/
theorem exec_startsWith {q : List Word} {i : Instr} {s t : State} (hw : WellFormed i = true) (hh : i ≠ .haltStream)
    (hu : i ≠ .unitReset) (hp : ∀ strap, i ≠ .powerOnReset strap) (hr : i ≠ .returnQueueRead) (hs : s.StartsWith q)
    (he : exec i s = .next t) : t.StartsWith q := by
  have k := wordsKeep_startsWith q
  cases hl : i.linkWords with
  | some cp =>
    obtain ⟨code, ps⟩ := cp
    have hhalt : code ≠ .haltStream := by rintro rfl; exact hh (eq_haltStream_of_linkWords hl)
    have hreset : code ≠ .unitReset := by rintro rfl; exact hu (eq_unitReset_of_linkWords hl)
    exact startsWith_of_command hl hhalt hreset hs he
  | none =>
    cases i
    case powerOnReset x => exact absurd rfl (hp x)
    case returnQueueRead => exact absurd rfl hr
    case benchParameterWord select w => cases he; exact k.writeStrobe s select w hw hs
    case mapDataWord w => cases he; exact k.parameterWord s w hs
    case unknownCommand w => cases he; exact k.unknownWord s w hw hs
    case streamMapItemRead =>
      cases he
      change s.grantStreamRead.StartsWith q
      unfold State.grantStreamRead
      split
      · exact hs
      · exact hs.completeStreamRead
    case captureWord b w => cases he; exact hs.same (State.captureWord_bench_returnQueue ..)
    case indexEvent => cases he; exact hs.same (State.takeIndex_bench_returnQueue _)
    case indexTimerExpiry => cases he; exact hs.same (State.timerExpiry_bench_returnQueue _)
    case runStart => cases he; exact hs.same (State.startRun_bench_returnQueue _)
    case learningTakeRecord => cases he; exact hs.same (by rw [State.takeRecord_bench])
    case learningOperation => cases he; exact hs.same (by rw [State.grantLearning_bench])
    case autoExclusion => cases he; exact hs.same (State.takeAutoExclusion_bench_returnQueue _)
    case ffRequest w => cases he; exact hs.same (by rw [State.takeRequest_bench])
    case ffOperation => cases he; exact hs.same (by rw [State.formReply_bench])
    case ffReplyStrobe b => cases he; exact hs.same (by rw [State.replyStrobe_bench])
    case sweepStep => cases he; exact hs.same (State.sweepStep_bench_returnQueue _)
    case memoryTestEnd r => cases he; exact hs.same (by rw [State.endMemoryTest_bench])
    case secondaryPresentAssert => cases he; exact hs.same (State.assertPresent_bench_returnQueue _)
    case presentSeen => cases he; exact hs.same (State.seePresent_bench_returnQueue _)
    case presenceWindowExpiry => cases he; exact hs.same (State.closePresence_bench_returnQueue _)
    case passedSeen => cases he; exact hs.same (State.seePassed_bench_returnQueue _)
    case pairWaitExpiry => cases he; exact hs.same (State.pairTimeout_bench_returnQueue _)
    case statusReadAcknowledge => cases he; exact hs.same (State.readStatus_bench_returnQueue _)
    case presentRelease => cases he; exact hs
    all_goals cases hl

/-- A select-0 read that this unit drives takes the oldest word, and drives it; any other takes none (R179, R188). -/
theorem readReturnQueue_words (s : State) : ∃ ws, s.readReturnQueue.bench.returnQueue = s.bench.returnQueue ++ ws
    ∨ (s.readReturnQueue.bench.out = s.bench.returnQueue.head?
      ∧ s.readReturnQueue.bench.returnQueue = s.bench.returnQueue.tail ++ ws) := by
  unfold State.readReturnQueue
  dsimp only
  split
  · rename_i h
    obtain ⟨hd, hne⟩ := h
    set u : State := { s with bench := { s.bench with out := s.linkRead 0, returnQueue := s.bench.returnQueue.tail } }
    obtain ⟨ws, hws⟩ : u.pump.StartsWith s.bench.returnQueue.tail := State.StartsWith.pump (List.prefix_refl _)
    refine ⟨ws, .inr ⟨?_, hws.symm⟩⟩
    rw [State.pump_bench_out]
    obtain ⟨w, q, hq⟩ := List.exists_cons_of_ne_nil hne
    change s.linkRead 0 = _
    rw [State.linkRead, if_pos hd, hq]
    rfl
  · exact ⟨[], .inl (List.append_nil _).symm⟩

/-- Settles O23: the select-0 read apart, no step takes a word out of the Return Queue. -/
theorem returnQueueKeepsItsWords : Obligations.ReturnQueueKeepsItsWords := by
  unfold Obligations.ReturnQueueKeepsItsWords
  intro i s t hw he hh hu hp
  by_cases hr : i = .returnQueueRead
  · subst hr
    cases he
    obtain ⟨ws, h | h⟩ := readReturnQueue_words s
    · exact ⟨ws, .inl h⟩
    · exact ⟨ws, .inr ⟨rfl, h⟩⟩
  · obtain ⟨ws, hws⟩ := exec_startsWith hw hh hu hp hr (List.prefix_refl s.bench.returnQueue) he
    exact ⟨ws, .inl hws.symm⟩

end Sys2Proof.Machine
end

section
/-! What a command word completes and ends before its command is judged (R176, R180, R187). -/

namespace Sys2Proof.Machine

/-! ### What was in assembly -/

section Ended
variable {s : State}

theorem endAssembly_of_idle (h : s.bench.assembly = .idle) : s.endAssembly = s := by
  rw [State.endAssembly, h]

/-- A command in assembly is abandoned, Incomplete (R180). -/
theorem endAssembly_of_assembling {code : CmdCode} {ws : List Word} (h : s.bench.assembly = .assembling code ws) :
    s.endAssembly = State.refuse { s with bench := { s.bench with assembly := .idle } } .incomplete := by
  rw [State.endAssembly, h]

/-- A Write Map that is no import ends with its data (R167). -/
theorem endAssembly_of_data (h : s.bench.assembly = .takingData none) :
    s.endAssembly = { s with bench := { s.bench with assembly := .idle } } := by
  rw [State.endAssembly, h]
  rfl

/-- An import that has not been judged fails as its data ends (R176). -/
theorem endAssembly_of_import {imp : Import} (h : s.bench.assembly = .takingData (some imp)) :
    s.endAssembly = if imp.stage = .judged then { s with bench := { s.bench with assembly := .idle } }
      else { s with
        profiles := s.profiles.set imp.head { s.profile imp.head with importFault := true }
        bench := { s.bench with assembly := .idle, flags := { s.bench.flags with importMismatch := true } } } := by
  rw [State.endAssembly, h]
  rfl

end Ended

/-- What a command word ends does not look at the strap. -/
theorem endAssembly_setStrap (s : State) (x : Bool) : (s.setStrap x).endAssembly = s.endAssembly.setStrap x := by
  have hb : (s.setStrap x).bench = s.bench := s.setStrap_bench x
  cases h : s.bench.assembly with
  | idle => rw [endAssembly_of_idle h, endAssembly_of_idle (hb ▸ h)]
  | assembling code ws => rw [endAssembly_of_assembling h, endAssembly_of_assembling (hb ▸ h)]; rfl
  | takingData imp =>
    cases imp with
    | none => rw [endAssembly_of_data h, endAssembly_of_data (hb ▸ h)]; rfl
    | some imp =>
      rw [endAssembly_of_import h, endAssembly_of_import (hb ▸ h)]
      split <;> rfl

/-! ### The command word -/

theorem commandArrives_setStrap (s : State) (x : Bool) : (s.setStrap x).commandArrives = s.commandArrives.setStrap x := by
  rw [State.commandArrives, takeClaimedRead_setStrap, endAssembly_setStrap, State.commandArrives]

/-- A command word that finds no read claimed ends nothing that a command word before it has ended (R180). -/
theorem commandArrives_twice {s : State} (h : ¬ s.commandArrives.ReadWaits) :
    s.commandArrives.commandArrives = s.commandArrives :=
  commandArrives_of_idle (endAssembly_idle _) fun left crc hr => h ⟨left, crc, hr⟩

/-- The units that take a command take it after its command word has arrived (R187). -/
theorem command_of_taken {s : State} {code : CmdCode}
    (h : s.bench.selected = s.startup.unitNo ∨ code = .selectUnit ∨ code = .selfTest) (own : State → State) :
    s.command code own = own s.commandArrives := by
  rcases h with h | rfl | rfl
  · exact command_of_selected h code own
  · rfl
  · rfl

/-- Self-Test, in either unit (R187, R202). -/
theorem exec_selfTest_arrived (s : State) (x : Bool) :
    exec (.selfTest x) s = .next (s.commandArrives.setStrap x).cmdSelfTest := by
  rw [← commandArrives_setStrap]
  rfl

/-- A command word in the unit that takes it, taken alone (R180). -/
theorem commandWord_of_taken {s : State} {w : Word} {code : CmdCode} (hw : CmdCode.ofWord w = some code)
    (h : s.bench.selected = s.startup.unitNo ∨ code = .selectUnit ∨ code = .selfTest) :
    s.commandWord w = if code.paramCount = 0 then s.commandArrives.perform code []
      else s.commandArrives.beginAssembly code := by
  rw [State.commandWord, hw]
  dsimp only
  rw [command_of_taken h, command_of_taken h]

/-- A word that names no command, in the selected unit (R181, R203; log 31). -/
theorem commandWord_of_unknown {s : State} {w : Word} (hw : CmdCode.ofWord w = none)
    (h : s.bench.selected = s.startup.unitNo) :
    s.commandWord w = s.commandArrives.refuse
      (if s.commandArrives.startup.unitState = .failed then .notReady
        else if s.commandArrives.bench.stream.isSome then .streaming else .badParameter) := by
  have hsel : s.isSelected = true := decide_eq_true h
  rw [State.commandWord, hw]
  dsimp only
  rw [State.commandSelected, if_pos hsel, State.judged, apply_ite (State.refuse _), apply_ite (State.refuse _)]

/-- Settles O28: the unit before the command is judged is the one in which its command word has arrived, assembly by assembly. -/
theorem commandEndsAssembly : Obligations.CommandEndsAssembly := by
  unfold Obligations.CommandEndsAssembly
  intro s
  refine ⟨s.takeClaimedRead, readTaken_takeClaimedRead s, ?_⟩
  intro idle e
  have he : e = s.commandArrives := by
    change e = s.takeClaimedRead.endAssembly
    unfold e idle
    cases h : s.takeClaimedRead.bench.assembly with
    | idle => exact (endAssembly_of_idle h).symm
    | assembling code ws => exact (endAssembly_of_assembling h).symm
    | takingData imp =>
      cases imp with
      | none => exact (endAssembly_of_data h).symm
      | some imp => exact (endAssembly_of_import h).symm
  clear_value e
  subst he
  have htaken {code : CmdCode} (h : s.bench.selected = s.startup.unitNo ∨ code = .selectUnit ∨ code = .selfTest) :
      s.commandArrives.bench.selected = s.commandArrives.startup.unitNo ∨ code = .selectUnit ∨ code = .selfTest := by
    rwa [State.commandArrives_bench_selected, State.commandArrives_startup]
  refine ⟨fun i code ps hl h => ⟨fun hc => ?_, ?_, fun hr => ?_⟩, fun w code hw h => ?_, fun w hw h => ?_⟩
  · rw [exec_command hl hc, command_of_taken h]
  · rintro x rfl
    cases hl
    exact exec_selfTest_arrived s x
  · by_cases hc : code = .selfTest
    · subst hc
      cases i <;> simp only [Instr.linkWords, reduceCtorEq, Option.some.injEq, Prod.mk.injEq, false_and] at hl
      case selfTest x => rw [exec_selfTest_arrived, exec_selfTest_arrived, commandArrives_twice hr]
    · rw [exec_command hl hc, exec_command hl hc, command_of_taken h, command_of_taken (htaken h), commandArrives_twice hr]
  · exact congrArg Host.Outcome.next (commandWord_of_taken hw h)
  · exact congrArg Host.Outcome.next (commandWord_of_unknown hw h)

end Sys2Proof.Machine
end

section
/-! The commands of the link itself and its reads (R173, R179, R183, R185, R187, R188, R193). -/

namespace Sys2Proof.Machine

/-! ### Select Unit, Null and Halt Stream -/

/-- Select Unit selects unit 0 or unit 1, in either unit (R187). -/
theorem cmdSelectUnit_of_le {u : Word} (hu : u.toNat ≤ 1) (s : State) : s.cmdSelectUnit u =
    { s with bench := { s.bench with selected := if u = 0 then 0 else 1, lastOutcome := .accepted } } := by
  have hunit : (Fin.ofNat 2 u.toNat : Fin 2) = if u = 0 then 0 else 1 := by
    have hcases : u = 0 ∨ u = 1 := by bv_omega
    rcases hcases with rfl | rfl
    · rfl
    · rfl
  rw [State.cmdSelectUnit, if_neg hu.not_gt, hunit]
  rfl

theorem cmdSelectUnit_of_gt {u : Word} (hu : 2 ≤ u.toNat) (s : State) : s.cmdSelectUnit u = s.refuse .badParameter :=
  if_pos hu

/-- Select Unit is taken in both units (R187). -/
theorem exec_selectUnit_of_idle {s : State} (ha : s.bench.assembly = .idle)
    (hr : ∀ left crc, s.bench.stream ≠ some { kind := .map left crc, words := [] }) (u : Word) :
    exec (.selectUnit u) s = .next (s.cmdSelectUnit u) :=
  congrArg (fun t => Host.Outcome.next (State.cmdSelectUnit u t)) (commandArrives_of_idle ha hr)

/-- Null changes nothing in a unit that is not Failed (R193). -/
theorem cmdNull_of_not_failed {s : State} (hf : s.startup.unitState ≠ .failed) : s.cmdNull = s := if_neg hf

/-- Halt Stream in a unit that is not Failed (R173). -/
theorem cmdHaltStream_of_not_failed {s : State} (hf : s.startup.unitState ≠ .failed) : s.cmdHaltStream =
    { s with bench := { s.bench with stream := none, returnQueue := [], lastOutcome := .accepted } } := if_neg hf

/-! ### The event commands -/

/-- The mask of the event commands, kind by kind (12.5). -/
theorem get_kinds_ofWord (w : Word) :
    [Kind.runEnded, .revolution, .captureOverrun, .returnLost, .commandRefused, .importMismatch, .exclusionFull,
        .spindleLost, .pairFault, .startupDone].map (Kinds.ofWord w).get = (List.range 10).map fun i => w.getLsbD i := rfl

section Open
variable {s : State} (ho : s.LinkOpen) (kinds : Word)
include ho

/-- Clear Events on an open link (R185). -/
theorem exec_clearEvents_of_open : exec (.clearEvents kinds) s = .next { s with bench := { s.bench with
    flags := s.bench.flags.minus (Kinds.ofWord kinds), lastOutcome := .accepted } } := by
  have hp : s.perform .clearEvents [kinds] = s.cmdClearEvents kinds := rfl
  rw [exec_of_open ho (i := .clearEvents kinds) rfl nofun, hp, State.cmdClearEvents, judged_of_open ho]
  rfl

/-- Set Event Enables on an open link (R185). -/
theorem exec_setEventEnables_of_open : exec (.setEventEnables kinds) s = .next { s with bench := { s.bench with
    enables := Kinds.ofWord kinds
    flags := s.bench.flags.minus ((Kinds.ofWord kinds).minus s.bench.enables)
    lastOutcome := .accepted } } := by
  have hp : s.perform .setEventEnables [kinds] = s.cmdSetEventEnables kinds := rfl
  rw [exec_of_open ho (i := .setEventEnables kinds) rfl nofun, hp, State.cmdSetEventEnables, judged_of_open ho]
  rfl

end Open

/-! ### The reads -/

section Driven
variable {s : State} (hd : s.drivesLink = true)
include hd

/-- A select-0 read of an empty Return Queue drives 0 and takes nothing (R179). -/
theorem readReturnQueue_of_empty (he : s.bench.returnQueue = []) :
    s.readReturnQueue = { s with bench := { s.bench with out := some 0 } } := by
  have hout : s.linkRead 0 = some 0 := by
    rw [State.linkRead, if_pos hd, he]
    rfl
  unfold State.readReturnQueue
  rw [if_neg fun h => h.2 he, hout]

/-- A select-0 read drives the oldest word, which leaves, and the stream places its next words (R171, R179). -/
theorem readReturnQueue_of_cons {w : Word} {q : List Word} (hq : s.bench.returnQueue = w :: q) :
    s.readReturnQueue = State.pump { s with bench := { s.bench with out := some w, returnQueue := q } } := by
  have hout : s.linkRead 0 = some w := by
    rw [State.linkRead, if_pos hd, hq]
    rfl
  have hne : s.bench.returnQueue ≠ [] := by
    rw [hq]
    exact List.cons_ne_nil w q
  unfold State.readReturnQueue
  rw [if_pos ⟨hd, hne⟩, hout, hq]
  rfl

/-- A select-1 read drives the Status word and clears the flags that are enabled (R183). -/
theorem readStatus_of_drives : s.readStatus = { s with bench := { s.bench with
    out := some s.statusWord, flags := s.bench.flags.minus s.bench.enables } } := by
  have hout : s.linkRead 1 = some s.statusWord := by
    rw [State.linkRead, if_pos hd]
    rfl
  unfold State.readStatus
  rw [if_pos hd, hout]

end Driven

section Undriven
variable {s : State} (hd : s.drivesLink = false)
include hd

/-- Where this unit does not drive the link it answers for an absent secondary alone (R188). -/
theorem linkRead_of_undriven (select : BitVec 2) : s.linkRead select =
    if s.startup.unitNo = 0 ∧ s.bench.selected = 1 ∧ s.startup.presence = .absent ∧ s.startup.presLine = false
    then some 0 else none := by
  have habsent : s.answersForAbsent = true
      ↔ s.startup.unitNo = 0 ∧ s.bench.selected = 1 ∧ s.startup.presence = .absent ∧ s.startup.presLine = false := by
    simp [State.answersForAbsent, and_assoc]
  rw [State.linkRead, if_neg (by rw [hd]; exact nofun)]
  exact if_congr habsent rfl rfl

/-- A read strobe that this unit does not drive takes no word (R188; log 10). -/
theorem readReturnQueue_of_undriven :
    s.readReturnQueue = { s with bench := { s.bench with out := s.linkRead 0 } } := by
  unfold State.readReturnQueue
  exact if_neg fun h => by rw [hd] at h; exact nomatch h.1

/-- A read strobe that this unit does not drive clears no flag (R188; log 10). -/
theorem readStatus_of_undriven : s.readStatus = { s with bench := { s.bench with out := s.linkRead 1 } } := by
  unfold State.readStatus
  exact if_neg (by rw [hd]; exact nofun)

end Undriven

/-- A unit that is not selected, and a secondary that is not Present, drives nothing of its own (R187, R188). -/
theorem drivesLink_eq_false {s : State}
    (h : s.bench.selected ≠ s.startup.unitNo ∨ (s.startup.unitNo = 1 ∧ s.startup.presLine = false)) :
    s.drivesLink = false := by
  rw [Bool.eq_false_iff, ne_eq, drivesLink_iff]
  rintro ⟨hsel, hdrive⟩
  rcases h with h | ⟨hone, hline⟩
  · exact h hsel
  · rw [hone, hline] at hdrive
    simp at hdrive

/-- Settles O52, command by command and read by read. -/
theorem linkReadsAndFlags : Obligations.LinkReadsAndFlags := by
  unfold Obligations.LinkReadsAndFlags
  intro s
  refine ⟨fun u ha hr => ⟨fun hu => ?_, fun hu => ?_⟩, fun hs ha hf hr => ⟨?_, ?_⟩, fun ho kinds => ?events,
    fun hs hp => ?driven, fun h => ?undriven⟩
  · rw [exec_selectUnit_of_idle ha hr, cmdSelectUnit_of_le hu]
  · rw [exec_selectUnit_of_idle ha hr, cmdSelectUnit_of_gt hu]
  · rw [exec_of_selected hs ha hr (i := .null) rfl nofun]
    exact congrArg _ (cmdNull_of_not_failed hf)
  · rw [exec_of_selected hs ha hr (i := .haltStream) rfl nofun]
    exact congrArg _ (cmdHaltStream_of_not_failed hf)
  case events =>
    refine ⟨_, _, _, exec_clearEvents_of_open ho kinds, exec_setEventEnables_of_open ho kinds, get_kinds_ofWord kinds,
      fun k => ⟨Kinds.get_minus _ _ k, ?_⟩⟩
    rw [Kinds.get_minus, Kinds.get_minus]
  case driven =>
    have hd : s.drivesLink = true := (drivesLink_iff s).mpr ⟨hs, hp⟩
    exact ⟨fun he => congrArg _ (readReturnQueue_of_empty hd he), fun w q hq => congrArg _ (readReturnQueue_of_cons hd hq),
      _, congrArg _ (readStatus_of_drives hd), Kinds.get_minus _ _⟩
  case undriven =>
    intro out
    have hd : s.drivesLink = false := drivesLink_eq_false h
    have hout (select : BitVec 2) : s.linkRead select = out := linkRead_of_undriven hd select
    refine ⟨congrArg Host.Outcome.next ?_, congrArg Host.Outcome.next ?_⟩
    · rw [readReturnQueue_of_undriven hd, hout]
    · rw [readStatus_of_undriven hd, hout]

end Sys2Proof.Machine
end

section
/-! The words of the link one by one: what a unit that is not selected ignores (R187), what a parameter word does (R178, R180),
and how a command's words come to what the command does. -/

namespace Sys2Proof.Machine

/-! ### Commands that a unit does not take -/

theorem assemblingSelect_iff (s : State) :
    s.assemblingSelect = true ↔ ∃ ws, s.bench.assembly = .assembling .selectUnit ws := by
  unfold State.assemblingSelect
  split
  next ws h => exact ⟨fun _ => ⟨ws, h⟩, fun _ => rfl⟩
  all_goals simp_all

theorem isSelected_of_ne {s : State} (h : s.bench.selected ≠ s.startup.unitNo) : ¬ s.isSelected = true := by
  simpa [State.isSelected] using h

/-- Only Select Unit and Self-Test are taken by both units (R181, R187). -/
theorem command_of_not_pair {code : CmdCode} (hu : code ≠ .selectUnit) (ht : code ≠ .selfTest) (s : State)
    (own : State → State) : s.command code own = s.commandSelected own := by
  cases code
  case selectUnit => exact absurd rfl hu
  case selfTest => exact absurd rfl ht
  all_goals rfl

/-- A command word that names neither of them, a word that names no command among them, is one for the selected unit
(R180, R187). -/
theorem commandWord_of_not_pair {w : Word} (hu : CmdCode.ofWord w ≠ some .selectUnit)
    (ht : CmdCode.ofWord w ≠ some .selfTest) (s : State) : ∃ own, s.commandWord w = s.commandSelected own := by
  unfold State.commandWord
  cases hw : CmdCode.ofWord w with
  | none => exact ⟨_, rfl⟩
  | some code =>
    have hpair (own : State → State) : s.command code own = s.commandSelected own :=
      command_of_not_pair (fun h => hu (by rw [hw, h])) (fun h => ht (by rw [hw, h])) s own
    dsimp only
    rw [hpair, hpair]
    split
    · exact ⟨_, rfl⟩
    · exact ⟨_, rfl⟩

section Unselected
variable {s : State} (hs : s.bench.selected ≠ s.startup.unitNo)
include hs

/-- A unit that is not selected ignores a command for the selected unit (R187). -/
theorem commandSelected_of_ignored (ha : ∀ ws, s.bench.assembly ≠ .assembling .selectUnit ws) (own : State → State) :
    s.commandSelected own = s := by
  have hno : ¬ s.assemblingSelect = true := by
    rw [assemblingSelect_iff]
    rintro ⟨ws, h⟩
    exact ha ws h
  rw [State.commandSelected, if_neg (isSelected_of_ne hs), if_neg hno]

/-- Such a command's word ends the Select Unit that the unit is assembling (R180, R187). -/
theorem commandSelected_of_abandoned {ws : List Word} (ha : s.bench.assembly = .assembling .selectUnit ws)
    (own : State → State) : s.commandSelected own = s.commandArrives := by
  rw [State.commandSelected, if_neg (isSelected_of_ne hs), if_pos ((assemblingSelect_iff s).mpr ⟨ws, ha⟩)]

/-- A unit that is not selected ignores a parameter word, unless it is one of a Select Unit (R187). -/
theorem parameterWord_of_ignored (ha : ∀ ws, s.bench.assembly ≠ .assembling .selectUnit ws) (w : Word) :
    s.parameterWord w = s := by
  refine if_neg ?_
  rw [Bool.or_eq_true, assemblingSelect_iff]
  rintro (h | ⟨ws, h⟩)
  · exact isSelected_of_ne hs h
  · exact ha ws h

end Unselected

/-- The word of a command ends a command in assembly, Incomplete, once the read claimed before it is completed (R180). -/
theorem commandArrives_of_assembling {s : State} {code : CmdCode} {ws : List Word}
    (ha : s.bench.assembly = .assembling code ws) : s.commandArrives = State.refuse
      { s.takeClaimedRead with bench := { s.takeClaimedRead.bench with assembly := .idle } } .incomplete :=
  endAssembly_of_assembling (by rw [State.takeClaimedRead_bench_assembly, ha])

/-- Settles O25: every such word comes to a command for the selected unit alone, or to a parameter word that is not taken. -/
theorem unselectedUnitIgnores : Obligations.UnselectedUnitIgnores := by
  unfold Obligations.UnselectedUnitIgnores
  intro s hs
  have hword {e : State} (he : ∀ own, s.commandSelected own = e) {w : Word} (hu : CmdCode.ofWord w ≠ some .selectUnit)
      (ht : CmdCode.ofWord w ≠ some .selfTest) :
      exec (.benchParameterWord 0 w) s = .next e ∧ exec (.unknownCommand w) s = .next e := by
    obtain ⟨own, hown⟩ := commandWord_of_not_pair hu ht s
    have hnext : s.commandWord w = e := hown.trans (he own)
    exact ⟨congrArg Host.Outcome.next hnext, congrArg Host.Outcome.next hnext⟩
  have hcommand {e : State} (he : ∀ own, s.commandSelected own = e) {i : Instr} {code : CmdCode} {ps : List Word}
      (hl : i.linkWords = some (code, ps)) (hu : code ≠ .selectUnit) (ht : code ≠ .selfTest) : exec i s = .next e := by
    rw [exec_command hl ht, command_of_not_pair hu ht, he]
  refine ⟨fun ha w => ?_, fun i code ps hl hu ht ha => ?_, fun ws ha => ?_⟩
  · have hparam : s.parameterWord w = s := parameterWord_of_ignored hs ha w
    exact ⟨congrArg Host.Outcome.next hparam, congrArg Host.Outcome.next hparam,
      hword (commandSelected_of_ignored hs ha)⟩
  · exact hcommand (commandSelected_of_ignored hs ha) hl hu ht
  · refine ⟨s.takeClaimedRead, readTaken_takeClaimedRead s, ?_⟩
    intro e
    have he (own : State → State) : s.commandSelected own = e :=
      (commandSelected_of_abandoned hs ha own).trans (commandArrives_of_assembling ha)
    exact ⟨fun i code ps hl hu ht => hcommand he hl hu ht, fun w hu ht => hword he hu ht⟩

/-! ### Parameter words -/

theorem takeClaimedRead_of_not_waits {s : State} (h : ¬ s.ReadWaits) : s.takeClaimedRead = s :=
  takeClaimedRead_of_no_read fun left crc hr => h ⟨left, crc, hr⟩

section Taken
variable {s : State} (h : s.bench.selected = s.startup.unitNo ∨ ∃ ws, s.bench.assembly = .assembling .selectUnit ws)
include h

theorem takesParameters : (s.isSelected || s.assemblingSelect) = true := by
  rw [Bool.or_eq_true, assemblingSelect_iff]
  exact h.imp_left decide_eq_true

/-- With nothing in assembly a parameter word is ignored, once the claimed read is completed (R180; log 5). -/
theorem parameterWord_of_idle (ha : s.bench.assembly = .idle) (w : Word) : s.parameterWord w = s.takeClaimedRead := by
  have hv : s.takeClaimedRead.bench.assembly = .idle := by rw [State.takeClaimedRead_bench_assembly, ha]
  rw [State.parameterWord, if_pos (takesParameters h)]
  dsimp only
  rw [hv]

/-- A parameter word is data while a Write Map takes data (R180). -/
theorem parameterWord_of_takingData {imp : Option Import} (ha : s.bench.assembly = .takingData imp) (w : Word) :
    s.parameterWord w = s.takeClaimedRead.dataWord imp w := by
  have hv : s.takeClaimedRead.bench.assembly = .takingData imp := by rw [State.takeClaimedRead_bench_assembly, ha]
  rw [State.parameterWord, if_pos (takesParameters h)]
  dsimp only
  rw [hv]

/-- A parameter word is one of the command in assembly (R180). -/
theorem parameterWord_of_assembling {code : CmdCode} {ps : List Word} (ha : s.bench.assembly = .assembling code ps)
    (w : Word) : s.parameterWord w = s.takeClaimedRead.assembleWord code ps w := by
  have hv : s.takeClaimedRead.bench.assembly = .assembling code ps := by rw [State.takeClaimedRead_bench_assembly, ha]
  rw [State.parameterWord, if_pos (takesParameters h)]
  dsimp only
  rw [hv]

end Taken

section Assembled
variable {s : State} {code : CmdCode} {ps : List Word} (w : Word)

/-- A word that is not the last parameter is held (R180). -/
theorem assembleWord_of_lt (h : ps.length + 1 < code.paramCount) : s.assembleWord code ps w =
    { s with bench := { s.bench with assembly := .assembling code (ps ++ [w]) } } := if_pos h

/-- With its last parameter the command is judged (R180). -/
theorem assembleWord_of_last (h : code.paramCount ≤ ps.length + 1) : s.assembleWord code ps w =
    State.perform { s with bench := { s.bench with assembly := .idle } } code (ps ++ [w]) := if_neg h.not_gt

end Assembled

/-- With nothing in assembly and no read waiting, a command is performed by the units that take it (R180, R187). -/
theorem exec_of_taken {s : State} (ha : s.bench.assembly = .idle) (hr : ¬ s.ReadWaits) {i : Instr} {code : CmdCode}
    {ps : List Word} (hl : i.linkWords = some (code, ps)) (hc : code ≠ .selfTest)
    (h : s.bench.selected = s.startup.unitNo ∨ code = .selectUnit) : exec i s = .next (s.perform code ps) := by
  rw [exec_command hl hc, command_of_taken (h.imp_right .inl),
    commandArrives_of_idle ha fun left crc hread => hr ⟨left, crc, hread⟩]

/-- Settles O55: the strobes by their select, a parameter word by what is in assembly, and a command word from Idle. -/
theorem singleWords : Obligations.SingleWords := by
  unfold Obligations.SingleWords
  intro s
  refine ⟨fun w => ⟨rfl, rfl, rfl, rfl⟩, fun h => ?parameters, fun ha hr w => ?commandWord⟩
  case parameters =>
    have hv : s.takeClaimedRead.bench.assembly = s.bench.assembly := State.takeClaimedRead_bench_assembly s
    have htaken : s.takeClaimedRead.bench.selected = s.takeClaimedRead.startup.unitNo
        ∨ ∃ ws, s.takeClaimedRead.bench.assembly = .assembling .selectUnit ws := by
      rwa [hv, State.takeClaimedRead_bench_selected, State.takeClaimedRead_startup]
    refine ⟨s.takeClaimedRead, readTaken_takeClaimedRead s, hv, fun w => ⟨fun ha => ?idle, fun imp ha => ?data,
      fun code ps ha => ?assembling⟩⟩
    case idle => exact congrArg Host.Outcome.next (parameterWord_of_idle h ha w)
    case data =>
      have hdata : s.parameterWord w = s.takeClaimedRead.dataWord imp w := parameterWord_of_takingData h ha w
      have hagain (hr : ¬ s.takeClaimedRead.ReadWaits) :
          s.takeClaimedRead.parameterWord w = s.takeClaimedRead.dataWord imp w := by
        rw [parameterWord_of_takingData htaken (hv.trans ha), takeClaimedRead_of_not_waits hr]
      exact ⟨congrArg Host.Outcome.next hdata, fun hr => congrArg Host.Outcome.next (hdata.trans (hagain hr).symm)⟩
    case assembling =>
      have hword : s.parameterWord w = s.takeClaimedRead.assembleWord code ps w := parameterWord_of_assembling h ha w
      refine ⟨fun hlt => congrArg Host.Outcome.next (hword.trans (assembleWord_of_lt w hlt)),
        fun hle => congrArg Host.Outcome.next (hword.trans (assembleWord_of_last w hle)), fun i hl hr => ?_⟩
      have hcount : ps.length + 1 = code.paramCount := by
        rw [← linkWords_length hl, List.length_append, List.length_singleton]
      have hc : code ≠ .selfTest := by
        rintro rfl
        exact Nat.succ_ne_zero _ hcount
      have hcode : s.bench.selected = s.startup.unitNo ∨ code = .selectUnit := by
        refine h.imp_right ?_
        rintro ⟨ws, hws⟩
        rw [hws] at ha
        cases ha
        rfl
      rw [exec_of_taken (s := { s.takeClaimedRead with bench := { s.takeClaimedRead.bench with assembly := .idle } })
        rfl hr hl hc (by simpa using hcode)]
      exact congrArg Host.Outcome.next (hword.trans (assembleWord_of_last w hcount.ge))
  case commandWord =>
    have harrives : s.commandArrives = s := commandArrives_of_idle ha fun left crc hread => hr ⟨left, crc, hread⟩
    refine ⟨fun hw hs => congrArg Host.Outcome.next ?_, fun code hw hcount hs => congrArg Host.Outcome.next ?_⟩
    · rw [commandWord_of_unknown hw hs, harrives]
    · have hopens : s.commandWord w = s.commandArrives.beginAssembly code := by
        rw [commandWord_of_taken hw (hs.imp_right .inl), if_neg (Nat.ne_of_gt hcount)]
      exact hopens.trans (by rw [harrives]; rfl)

/-! ### A command and its words -/

/-- A command's words, written one after another, are the model's own writing of them (R178). -/
theorem execAll_words (s : State) (code : CmdCode) (ps : List Word) :
    execAll (.benchParameterWord 0 code.code :: ps.map (.benchParameterWord 1)) s = .next (s.writeCommand code ps) := by
  have hparams (t : State) : execAll (ps.map (.benchParameterWord 1)) t = .next (ps.foldl State.parameterWord t) := by
    induction ps generalizing t with
    | nil => rfl
    | cons w ws ih => exact ih (t.parameterWord w)
  exact hparams (s.commandWord code.code)

/-- Parameter words that a unit ignores leave it as it is (R187). -/
theorem foldl_parameterWord_of_ignored {s : State} (hs : s.bench.selected ≠ s.startup.unitNo)
    (ha : ∀ ws, s.bench.assembly ≠ .assembling .selectUnit ws) (ps : List Word) : ps.foldl State.parameterWord s = s := by
  induction ps with
  | nil => rfl
  | cons w ws ih => rw [List.foldl_cons, parameterWord_of_ignored hs ha, ih]

/-- The parameter words that a command in assembly lacks complete it, and it is performed on all of them (R180). -/
theorem foldl_parameterWord_of_assembling {code : CmdCode} {ps : List Word} (hps : ps ≠ []) {s : State} {held : List Word}
    (ha : s.bench.assembly = .assembling code held) (hcount : held.length + ps.length = code.paramCount)
    (hr : ¬ s.ReadWaits) (h : s.bench.selected = s.startup.unitNo ∨ code = .selectUnit) :
    ps.foldl State.parameterWord s
      = State.perform { s with bench := { s.bench with assembly := .idle } } code (held ++ ps) := by
  induction ps generalizing s held with
  | nil => exact absurd rfl hps
  | cons w ws ih =>
    have htaken : s.bench.selected = s.startup.unitNo ∨ ∃ ws, s.bench.assembly = .assembling .selectUnit ws :=
      h.imp_right fun hc => ⟨held, by rw [ha, hc]⟩
    rw [List.foldl_cons, parameterWord_of_assembling htaken ha, takeClaimedRead_of_not_waits hr]
    rw [List.length_cons] at hcount
    rcases eq_or_ne ws [] with rfl | hws
    · exact assembleWord_of_last w hcount.ge
    · have hlt : held.length + 1 < code.paramCount := by
        have hpos : 0 < ws.length := List.length_pos_of_ne_nil hws
        omega
      have hcount : (held ++ [w]).length + ws.length = code.paramCount := by
        rw [List.length_append, List.length_singleton]
        omega
      rw [assembleWord_of_lt w hlt, List.append_cons held w ws]
      exact ih (s := { s with bench := { s.bench with assembly := .assembling code (held ++ [w]) } }) hws rfl hcount hr h

section Opened
variable {s : State} {code : CmdCode} {ps : List Word}

/-- In a unit that takes the command, its words come to its judgement (R180). -/
theorem foldl_parameterWord_of_taken (hps : ps ≠ []) (hcount : ps.length = code.paramCount) (hr : ¬ s.ReadWaits)
    (h : s.bench.selected = s.startup.unitNo ∨ code = .selectUnit) :
    ps.foldl State.parameterWord (s.command code (State.beginAssembly code))
      = s.command code fun t => t.perform code ps := by
  have hidle : { s.commandArrives with bench := { s.commandArrives.bench with assembly := .idle } } = s.commandArrives := by
    rw [← endAssembly_idle s.takeClaimedRead]
    rfl
  have hread : ¬ s.commandArrives.ReadWaits := by
    rwa [State.commandArrives, takeClaimedRead_of_not_waits hr, State.ReadWaits, State.endAssembly_bench_stream]
  have htaken : s.commandArrives.bench.selected = s.commandArrives.startup.unitNo ∨ code = .selectUnit := by
    rwa [State.commandArrives_bench_selected, State.commandArrives_startup]
  rw [command_of_taken (h.imp_right .inl), command_of_taken (h.imp_right .inl),
    foldl_parameterWord_of_assembling hps (s := s.commandArrives.beginAssembly code) rfl
      ((Nat.zero_add _).trans hcount) hread htaken]
  exact congrArg (fun t => State.perform t code ps) hidle

/-- A unit that does not take the command takes none of its parameter words (R187). -/
theorem foldl_parameterWord_of_untaken (hs : s.bench.selected ≠ s.startup.unitNo) (hu : code ≠ .selectUnit)
    (ht : code ≠ .selfTest) (own own' : State → State) :
    ps.foldl State.parameterWord (s.command code own) = s.command code own' := by
  rw [command_of_not_pair hu ht, command_of_not_pair hu ht]
  by_cases ha : ∃ ws, s.bench.assembly = .assembling .selectUnit ws
  · obtain ⟨ws, ha⟩ := ha
    have hidle : s.commandArrives.bench.assembly = .idle := endAssembly_idle s.takeClaimedRead
    have hsel : s.commandArrives.bench.selected ≠ s.commandArrives.startup.unitNo := by
      rwa [State.commandArrives_bench_selected, State.commandArrives_startup]
    rw [commandSelected_of_abandoned hs ha, commandSelected_of_abandoned hs ha]
    exact foldl_parameterWord_of_ignored hsel (by rw [hidle]; exact nofun) ps
  · rw [not_exists] at ha
    rw [commandSelected_of_ignored hs ha, commandSelected_of_ignored hs ha]
    exact foldl_parameterWord_of_ignored hs ha ps

/-- The words of a command do what the command does, in the units that take it and in those that do not (R180, R187). -/
theorem writeCommand_eq_command (hcount : ps.length = code.paramCount) (hr : ps = [] ∨ ¬ s.ReadWaits) :
    s.writeCommand code ps = s.command code fun t => t.perform code ps := by
  change ps.foldl State.parameterWord (s.commandWord code.code) = _
  rw [State.commandWord, ofWord_code]
  dsimp only
  rcases eq_or_ne ps [] with rfl | hps
  · rw [if_pos (show code.paramCount = 0 from hcount.symm), List.foldl_nil]
  have hpos : code.paramCount ≠ 0 := hcount ▸ (List.length_pos_of_ne_nil hps).ne'
  have ht : code ≠ .selfTest := by
    rintro rfl
    exact hpos rfl
  rw [if_neg hpos]
  by_cases h : s.bench.selected = s.startup.unitNo ∨ code = .selectUnit
  · exact foldl_parameterWord_of_taken hps hcount (hr.resolve_left hps) h
  · rw [not_or] at h
    exact foldl_parameterWord_of_untaken h.1 h.2 ht _ _

end Opened

/-- A Self-Test that reads the strap as it stands is a command of the link like the others (R196, R202). -/
theorem exec_command_of_strap {s : State} {i : Instr} {code : CmdCode} {ps : List Word} (hl : i.linkWords = some (code, ps))
    (hstrap : ∀ strap, i = .selfTest strap → strap = s.startup.strap) :
    exec i s = .next (s.command code fun t => t.perform code ps) := by
  by_cases hc : code = .selfTest
  · subst hc
    cases i <;> simp only [Instr.linkWords, reduceCtorEq, Option.some.injEq, Prod.mk.injEq, false_and] at hl
    case selfTest strap =>
      obtain ⟨-, rfl⟩ := hl
      obtain rfl := hstrap strap rfl
      rfl
  · exact exec_command hl hc s

/-- Settles O27: both are the command, taken by the units that take it. -/
theorem commandEqualsItsWords : Obligations.CommandEqualsItsWords := by
  unfold Obligations.CommandEqualsItsWords
  intro s i code ps hl hr hstrap
  rw [execAll_words, writeCommand_eq_command (linkWords_length hl) hr]
  exact exec_command_of_strap hl hstrap

end Sys2Proof.Machine
end

section
/-! The Status word as a number, and what software recovers from it (R182, R188, R205). -/

namespace Sys2Proof.Machine

/-! ### Attention and the outcome -/

theorem Kinds.get_map2 (f : Bool → Bool → Bool) (a b : Kinds) (k : Kind) :
    (Kinds.map2 f a b).get k = f (a.get k) (b.get k) := by
  cases k <;> rfl

theorem Kinds.nonempty_iff (t : Kinds) : t.nonempty = true ↔ ∃ k, t.get k = true := by
  constructor
  · intro h
    simp only [Kinds.nonempty, Bool.or_eq_true, or_assoc] at h
    rcases h with h | h | h | h | h | h | h | h | h | h
    exacts [⟨.runEnded, h⟩, ⟨.revolution, h⟩, ⟨.captureOverrun, h⟩, ⟨.returnLost, h⟩, ⟨.commandRefused, h⟩,
      ⟨.importMismatch, h⟩, ⟨.exclusionFull, h⟩, ⟨.spindleLost, h⟩, ⟨.pairFault, h⟩, ⟨.startupDone, h⟩]
  · rintro ⟨k, hk⟩
    cases k <;> simp_all [Kinds.nonempty, Kinds.get]

/-- Attention is a flag with its enable (R184). -/
theorem attention_iff (s : State) :
    s.attention = true ↔ ∃ k, s.bench.flags.get k = true ∧ s.bench.enables.get k = true := by
  rw [State.attention, Kinds.nonempty_iff]
  simp only [Kinds.get_map2, Bool.and_eq_true]

theorem boolNat_le_one (b : Bool) : boolNat b ≤ 1 := by
  cases b <;> decide

theorem boolNat_injective : Function.Injective boolNat := by
  unfold Function.Injective
  decide

theorem Outcome.code_le_nine (o : Outcome) : o.code ≤ 9 := by
  cases o <;> decide

/-- The outcome that a code stands for (R205). -/
def Outcome.ofCode (n : Nat) : Outcome :=
  [Outcome.accepted, .busy, .badParameter, .queueFull, .tableFull, .notFound, .streaming, .notReady, .noResult,
    .incomplete].getD n .accepted

theorem Outcome.ofCode_code (o : Outcome) : Outcome.ofCode o.code = o := by
  cases o <;> rfl

theorem Outcome.code_injective : Function.Injective Outcome.code :=
  Function.LeftInverse.injective Outcome.ofCode_code

/-! ### The condition field -/

/-- The four forms of the condition field of a unit that is there: by its state, and in a Ready unit by whether a run is active
(R205). -/
inductive ConditionForm where
  | starting | failed | idle | running

/-- What the condition field is formed from: the form, feed-forward and busy as 1 or 0, and the numbers of results and of
descriptors (R205). -/
structure ConditionFields where
  form : ConditionForm
  feedForward : Nat
  busy : Nat
  results : Nat
  queued : Nat

/-- The number of R205. -/
def ConditionFields.value (c : ConditionFields) : Nat :=
  match c.form with
  | .starting => 1 + c.feedForward + 2 * (c.results + 9 * c.queued)
  | .failed => 163 + c.feedForward + 2 * c.results
  | .idle => 181 + c.busy + 2 * c.feedForward + 4 * (c.results + 9 * c.queued)
  | .running => 505 + c.busy + 2 * (c.results + 8 * c.queued)

/-- The bounds the queues keep, an active run holding the place of its result (R85, R105). -/
structure ConditionFields.Legal (c : ConditionFields) : Prop where
  feedForward : c.feedForward ≤ 1
  busy : c.busy ≤ 1
  results : c.results ≤ 8
  resultsRunning : c.form = .running → c.results ≤ 7
  queued : c.queued ≤ 8

/-- The least and the greatest number of a form (R205). -/
def ConditionForm.range : ConditionForm → Nat × Nat
  | .starting => (1, 162)
  | .failed => (163, 180)
  | .idle => (181, 504)
  | .running => (505, 648)

theorem ConditionFields.Legal.value_mem_range {c : ConditionFields} (h : c.Legal) :
    c.form.range.1 ≤ c.value ∧ c.value ≤ c.form.range.2 := by
  obtain ⟨form, f, b, r, q⟩ := c
  obtain ⟨hf, hb, hr, hrun, hq⟩ := h
  cases form with
  | starting | failed | idle =>
    simp only [ConditionForm.range, ConditionFields.value] at *
    omega
  | running =>
    have hr : r ≤ 7 := hrun rfl
    simp only [ConditionForm.range, ConditionFields.value] at *
    omega

/-- The form whose range holds a number (R205). -/
def ConditionForm.ofNumber (n : Nat) : ConditionForm :=
  if n ≤ 162 then .starting else if n ≤ 180 then .failed else if n ≤ 504 then .idle else .running

theorem ConditionForm.ofNumber_of_mem_range {x : ConditionForm} {n : Nat} (h : x.range.1 ≤ n ∧ n ≤ x.range.2) :
    ConditionForm.ofNumber n = x := by
  unfold ConditionForm.ofNumber
  cases x <;> simp only [ConditionForm.range] at h
  case starting => rw [if_pos h.2]
  case failed => rw [if_neg (by omega), if_pos h.2]
  case idle => rw [if_neg (by omega), if_neg (by omega), if_pos h.2]
  case running => rw [if_neg (by omega), if_neg (by omega), if_neg (by omega)]

/-- The number tells the form, and the fields that stand in it (R205). -/
theorem ConditionFields.fields_eq_of_value_eq {c d : ConditionFields} (hc : c.Legal) (hd : d.Legal)
    (h : c.value = d.value) : c.form = d.form ∧ c.results = d.results ∧ (c.form ≠ .failed → c.queued = d.queued)
      ∧ (c.form ≠ .running → c.feedForward = d.feedForward)
      ∧ (c.form = .idle ∨ c.form = .running → c.busy = d.busy) := by
  have hform : c.form = d.form := by
    rw [← ConditionForm.ofNumber_of_mem_range hc.value_mem_range, h, ConditionForm.ofNumber_of_mem_range hd.value_mem_range]
  obtain ⟨form, f, b, r, q⟩ := c
  obtain ⟨form', f', b', r', q'⟩ := d
  obtain rfl : form = form' := hform
  obtain ⟨hcf, hcb, hcr, hcrun, hcq⟩ := hc
  obtain ⟨hdf, hdb, hdr, hdrun, hdq⟩ := hd
  cases form <;> dsimp only [ConditionFields.value] at *
  case starting => exact ⟨rfl, by omega, fun _ => by omega, fun _ => by omega, nofun⟩
  case failed => exact ⟨rfl, by omega, fun h => absurd rfl h, fun _ => by omega, nofun⟩
  case idle => exact ⟨rfl, by omega, fun _ => by omega, fun _ => by omega, fun _ => by omega⟩
  case running =>
    have hr : r ≤ 7 := hcrun rfl
    have hr' : r' ≤ 7 := hdrun rfl
    exact ⟨rfl, by omega, fun _ => by omega, fun h => absurd rfl h, fun _ => by omega⟩

/-! ### The condition field of a unit -/

/-- The form of the unit's condition field (R205). -/
def State.conditionForm (s : State) : ConditionForm :=
  match s.startup.unitState with
  | .starting => .starting
  | .failed => .failed
  | .ready => if s.runs.active.isSome then .running else .idle

/-- What the unit's condition field is formed from (R205). -/
def State.conditionFields (s : State) : ConditionFields where
  form := s.conditionForm
  feedForward := boolNat s.settings.feedForward
  busy := boolNat s.busy
  results := s.runs.results.length
  queued := s.runs.queue.length

theorem condition_eq_value (s : State) : s.condition = s.conditionFields.value := by
  unfold State.condition ConditionFields.value State.conditionFields State.conditionForm
  cases s.startup.unitState with
  | starting | failed => rfl
  | ready => cases s.runs.active <;> rfl

theorem conditionForm_unitState (s : State) : s.startup.unitState =
    match s.conditionForm with
    | .starting => .starting
    | .failed => .failed
    | .idle | .running => .ready := by
  unfold State.conditionForm
  cases s.startup.unitState with
  | starting | failed => rfl
  | ready => cases s.runs.active <;> rfl

theorem conditionForm_ne_failed {s : State} (h : s.startup.unitState ≠ .failed) : s.conditionForm ≠ .failed := by
  intro hform
  rw [conditionForm_unitState, hform] at h
  exact h rfl

/-- A unit that is neither Starting nor Failed is Ready, with a run active or with none (R195). -/
theorem conditionForm_of_ready {s : State} (hs : s.startup.unitState ≠ .starting) (hf : s.startup.unitState ≠ .failed) :
    s.conditionForm = .idle ∨ s.conditionForm = .running := by
  rw [conditionForm_unitState] at hs hf
  cases h : s.conditionForm with
  | starting => exact absurd (by rw [h]) hs
  | failed => exact absurd (by rw [h]) hf
  | idle => exact .inl rfl
  | running => exact .inr rfl

/-- A Starting unit is busy (R182). -/
theorem busy_of_starting {s : State} (h : s.startup.unitState = .starting) : s.busy = true := by
  rw [State.busy, h]
  exact Bool.or_true _

section Lawful
variable {s : State} (hr : s.RunLaw)
include hr

/-- A run is active in a Ready unit alone (R87). -/
theorem conditionForm_eq_running_iff : s.conditionForm = .running ↔ s.runs.active.isSome = true := by
  have hready : s.runs.active.isSome = true → s.startup.unitState = .ready := fun h => (hr.active h).1
  unfold State.conditionForm
  cases hu : s.startup.unitState <;> simp_all [Option.isSome_iff_ne_none]

theorem conditionFields_legal (hq : s.QueueLaw) : s.conditionFields.Legal where
  feedForward := boolNat_le_one _
  busy := boolNat_le_one _
  results := (Nat.le_add_right _ _).trans hq.results
  resultsRunning h := by
    have hrun : s.runs.active.isSome = true := (conditionForm_eq_running_iff hr).mp h
    have hle : s.runs.results.length + 1 ≤ 8 := by
      simpa only [hrun, boolNat, if_true, Config.resultQueueDepth] using hq.results
    exact Nat.le_of_succ_le_succ hle
  queued := hq.runs

end Lawful

/-! ### The Status word -/

/-- The Status word is the number of R205, which fits it. -/
theorem statusWord_toNat {s : State} (hq : s.QueueLaw) (hr : s.RunLaw) : s.statusWord.toNat =
      100 * s.condition + 50 * boolNat s.attention + 10 * s.bench.returnQueue.length + s.bench.lastOutcome.code
    ∧ s.statusWord.toNat ≤ 64899 := by
  have hc : s.condition ≤ 648 := by
    have h := (conditionFields_legal hr hq).value_mem_range.2
    rw [← condition_eq_value] at h
    exact h.trans (by cases s.conditionFields.form <;> decide)
  have ha : boolNat s.attention ≤ 1 := boolNat_le_one _
  have hw : s.bench.returnQueue.length ≤ 4 := hq.words
  have ho : s.bench.lastOutcome.code ≤ 9 := Outcome.code_le_nine _
  have hle : 100 * s.condition + 50 * boolNat s.attention + 10 * s.bench.returnQueue.length + s.bench.lastOutcome.code
      ≤ 64899 := by
    omega
  rw [State.statusWord, wordOf, BitVec.toNat_ofNat, Nat.mod_eq_of_lt (hle.trans_lt (by decide))]
  exact ⟨rfl, hle⟩

/-- Equal Status words carry equal conditions, Attentions, numbers of words and outcomes (R205). -/
theorem fields_eq_of_statusWord_eq {s t : State} (hsq : s.QueueLaw) (hsr : s.RunLaw) (htq : t.QueueLaw) (htr : t.RunLaw)
    (h : s.statusWord = t.statusWord) : s.condition = t.condition ∧ s.attention = t.attention
      ∧ s.bench.returnQueue.length = t.bench.returnQueue.length ∧ s.bench.lastOutcome = t.bench.lastOutcome := by
  have hn := (statusWord_toNat hsq hsr).1
  rw [h, (statusWord_toNat htq htr).1] at hn
  have hsa := boolNat_le_one s.attention
  have hta := boolNat_le_one t.attention
  have hsw : s.bench.returnQueue.length ≤ 4 := hsq.words
  have htw : t.bench.returnQueue.length ≤ 4 := htq.words
  have hso := s.bench.lastOutcome.code_le_nine
  have hto := t.bench.lastOutcome.code_le_nine
  have ha : boolNat s.attention = boolNat t.attention := by omega
  have ho : s.bench.lastOutcome.code = t.bench.lastOutcome.code := by omega
  exact ⟨by omega, boolNat_injective ha, by omega, Outcome.code_injective ho⟩

/-- A primary that answers for its absent secondary drives 0 (R188, R204). -/
theorem linkRead_of_absent {s : State} (hn : s.startup.unitNo = 0) (hs : s.bench.selected = 1)
    (hp : s.startup.presence = .absent) (hl : s.startup.presLine = false) (select : BitVec 2) :
    s.linkRead select = some 0 := by
  have hd : s.drivesLink = false := drivesLink_eq_false (.inl (by rw [hn, hs]; decide))
  rw [linkRead_of_undriven hd, if_pos ⟨hn, hs, hp, hl⟩]

/-- Settles O10: the number fits the word, its digits are told apart by their bounds, and the condition by the ranges of its
forms. -/
theorem statusWordCarriesItsFields : Obligations.StatusWordCarriesItsFields := by
  unfold Obligations.StatusWordCarriesItsFields
  refine ⟨fun s hq hr => ?_, fun s hn hs hp hl => ⟨linkRead_of_absent hn hs hp hl 1, linkRead_of_absent hn hs hp hl 2⟩,
    fun s t hsq hsr htq htr h => ?_⟩
  · intro f b r q c a o
    have hb : b = boolNat s.busy := by
      simp [b, State.busy, boolNat, or_comm]
    have hc : s.condition = c := by
      unfold c State.condition
      rw [hb]
      cases s.startup.unitState with
      | starting | failed => rfl
      | ready => cases s.runs.active <;> rfl
    have ho : s.bench.lastOutcome.code = o := by
      unfold o
      cases s.bench.lastOutcome <;> rfl
    obtain ⟨hnum, hle⟩ := statusWord_toNat hq hr
    rw [hc, ho] at hnum
    exact ⟨hnum, hle, attention_iff s⟩
  · obtain ⟨hcond, ha, hw, ho⟩ := fields_eq_of_statusWord_eq hsq hsr htq htr h
    rw [condition_eq_value, condition_eq_value] at hcond
    obtain ⟨hform, hresults, hqueue, hff, hbusy⟩ := ConditionFields.fields_eq_of_value_eq (conditionFields_legal hsr hsq)
      (conditionFields_legal htr htq) hcond
    change s.conditionForm = t.conditionForm at hform
    have hunit : s.startup.unitState = t.startup.unitState := by
      rw [conditionForm_unitState s, conditionForm_unitState t, hform]
    have hactive : s.runs.active.isSome = t.runs.active.isSome := by
      rw [Bool.eq_iff_iff, ← conditionForm_eq_running_iff hsr, ← conditionForm_eq_running_iff htr, hform]
    refine ⟨hunit, hactive, ?feedForward, hresults, fun hf => ⟨?unitBusy, hqueue (conditionForm_ne_failed hf)⟩, hw, ha, ho⟩
    case feedForward =>
      by_cases hrun : s.runs.active.isSome = true
      · rw [(hsr.active hrun).2, (htr.active (hactive ▸ hrun)).2]
      · exact boolNat_injective (hff (mt (conditionForm_eq_running_iff hsr).mp hrun))
    case unitBusy =>
      by_cases hstart : s.startup.unitState = .starting
      · rw [busy_of_starting hstart, busy_of_starting (hunit ▸ hstart)]
      · exact boolNat_injective (hbusy (conditionForm_of_ready hstart hf))

end Sys2Proof.Machine
end

section
/-! Power-on, the end of the memory test and of a start-up test, the pair handshake, and when the unit state changes (R195 to
R201). -/

namespace Sys2Proof.Machine

/-! ### Power-on and the memory test (R196 to R198) -/

theorem endMemoryTest_of_test {s : State} (hu : s.startup.unitState = .starting) (hp : s.startup.phase = .memoryTest)
    (own : MemoryResult) :
    s.endMemoryTest own = { s with
      map := updateRows s.map (fun _ => true) fun _ _ => Cell.unexcluded
      profiles := updateProfiles s.profiles fun _ p =>
        { p with offset := 0, importFault := false, publishPending := false, pendingGain := none }
      exclusions := []
      sweep := some (gridSweep (if s.startup.powerOnTest then .powerOn else .selfTest))
      startup := { s.startup with phase := .sweeping own, memoryFault := own != .pass } } := by
  have hfault : decide (own ≠ .pass) = (own != .pass) := by cases own <;> rfl
  rw [State.endMemoryTest, if_pos ⟨hu, hp⟩, State.prepareMap, State.emptyExclusions, hfault]

@[simp] theorem State.endMemoryTest_unitState (s : State) (own : MemoryResult) :
    (s.endMemoryTest own).startup.unitState = s.startup.unitState := by
  unfold State.endMemoryTest
  split <;> rfl

/-- Settles O48: the watch of a test that begins at power-on, by the strap; and the preparation of the map cell by cell. -/
theorem powerOnAndMemoryTest : Obligations.PowerOnAndMemoryTest := by
  unfold Obligations.PowerOnAndMemoryTest
  refine ⟨fun s strap => by cases strap <;> rfl, fun s own hm hu hp => ?_⟩
  exact ⟨_, _, congrArg Host.Outcome.next (endMemoryTest_of_test hu hp own), fun h w => cellAt_unexcluded s h w hm,
    fun h => PerHead.get_ofFn _ h⟩

/-! ### The end of a start-up test (R200, R201) -/

theorem endTestIfDone_of_not_settled {s : State} (h : ¬ s.startup.pairSettled = true) : s.endTestIfDone = s := by
  unfold State.endTestIfDone
  split
  · exact if_neg fun hc => h hc.2
  · rfl

theorem endTestIfDone_of_settled {s : State} {own : MemoryResult} (hu : s.startup.unitState = .starting)
    (hp : s.startup.phase = .swept own) (h : s.startup.pairSettled = true) : s.endTestIfDone = s.finishTest own := by
  rw [endTestIfDone_of_swept hp hu, if_pos h]

/-- The end of a test, its code and its marks written out (R201). -/
theorem finishTest_eq (s : State) (own : MemoryResult) :
    s.finishTest own = { s with
      startup := { s.startup with
        unitState := if own = .pass then .ready else .failed
        testCode := testCodeOf own s.startup.verdict
        phase := .none
        passOut := s.startup.passOut || (own == .pass && s.startup.unitNo == 1) }
      runs := { s.runs with queue := if own = .pass then s.runs.queue else [] }
      profiles := (s.finishTest own).profiles
      bench := { s.bench with flags := { s.bench.flags with startupDone := true } } } := by
  cases own <;> rfl

/-- A unit that becomes Failed loses its publish pending marks (R201). -/
theorem finishTest_profile (s : State) (own : MemoryResult) (h : Head) :
    (s.finishTest own).profile h =
      { s.profile h with publishPending := if own = .pass then (s.profile h).publishPending else false } := by
  cases own with
  | pass => rfl
  | mapFault | queueFault => exact PerHead.get_ofFn (fun k => { s.profile k with publishPending := false }) h

/-! ### The pair handshake (R199, R200) -/

theorem checking_iff (u : Startup) :
    u.checking = true ↔ u.unitNo = 0 ∧ u.unitState = .starting ∧ u.checkOpen = true := by
  simp [Startup.checking, and_assoc]

theorem awaitsPassed_iff (u : Startup) : u.awaitsPassed = true ↔
    u.unitNo = 0 ∧ u.unitState = .starting ∧ u.verdict = .waiting ∧ (u.checkOpen = true ∨ u.presence = .present) := by
  simp [Startup.awaitsPassed, and_assoc]

/-- The unit with its secondary's presence recorded and the check closed, before it is asked whether the test ends (R200). -/
def State.recorded (s : State) (p : Presence) : State :=
  { s with startup := { s.startup with presence := p, checkOpen := false } }

theorem recorded_settled_iff (s : State) (p : Presence) :
    (s.recorded p).startup.pairSettled = true ↔ p ≠ .present ∨ s.startup.verdict ≠ .waiting := by
  simp [pairSettled_iff, State.recorded]

/-- The test goes on after the record where its sweep has not ended (R200). -/
theorem recordPresence_of_not_swept {s : State} (hp : ∀ own, s.startup.phase ≠ .swept own) (p : Presence) :
    s.recordPresence p = s.recorded p := endTestIfDone_of_not_swept hp

/-- The test goes on after the record where a secondary found has yet to pass (R200). -/
theorem recordPresence_of_waiting {s : State} (hv : s.startup.verdict = .waiting) :
    s.recordPresence .present = s.recorded .present :=
  endTestIfDone_of_not_settled (s := s.recorded .present) (by simp [recorded_settled_iff, hv])

/-- The record ends the test where nothing is left to wait for (R200). -/
theorem recordPresence_of_swept {s : State} {own : MemoryResult} {p : Presence} (hu : s.startup.unitState = .starting)
    (hp : s.startup.phase = .swept own) (h : p ≠ .present ∨ s.startup.verdict ≠ .waiting) :
    s.recordPresence p = (s.recorded p).finishTest own :=
  endTestIfDone_of_settled (s := s.recorded p) hu hp ((recorded_settled_iff s p).mpr h)

/-- The unit with the wait for Passed judged, before it is asked whether the test ends (R200). -/
def State.withVerdict (s : State) (v : PairVerdict) : State :=
  { s with startup := { s.startup with verdict := v } }

theorem withVerdict_not_settled {s : State} (hc : s.startup.checkOpen = true) (v : PairVerdict) :
    ¬ (s.withVerdict v).startup.pairSettled = true := by
  simp [pairSettled_iff, State.withVerdict, hc]

theorem withVerdict_settled {s : State} (hc : s.startup.checkOpen = false) {v : PairVerdict} (hv : v ≠ .waiting) :
    (s.withVerdict v).startup.pairSettled = true := by
  rw [pairSettled_iff]
  exact ⟨hc, .inr hv⟩

section Checking

variable {s : State}

theorem exec_secondaryPresentAssert_of_checking (hc : s.startup.checking = true) :
    exec .secondaryPresentAssert s = .next ((s.setPresLine true).recordPresence .present) :=
  congrArg Host.Outcome.next (if_pos hc)

theorem exec_secondaryPresentAssert_of_not_checking (hc : ¬ s.startup.checking = true) :
    exec .secondaryPresentAssert s = .next (s.setPresLine true) :=
  congrArg Host.Outcome.next (if_neg hc)

theorem exec_presentSeen_of_checking (hc : s.startup.checking = true) :
    exec .presentSeen s = .next ((s.setPresLine true).recordPresence .present) :=
  congrArg Host.Outcome.next (if_pos hc)

theorem exec_presentSeen_of_not_checking (hc : ¬ s.startup.checking = true) : exec .presentSeen s = .next s :=
  congrArg Host.Outcome.next (if_neg hc)

theorem exec_presenceWindowExpiry_of_checking (hc : s.startup.checking = true) :
    exec .presenceWindowExpiry s = .next (s.recordPresence (if s.startup.presLine then .present else .absent)) :=
  congrArg Host.Outcome.next (if_pos hc)

theorem exec_presenceWindowExpiry_of_not_checking (hc : ¬ s.startup.checking = true) :
    exec .presenceWindowExpiry s = .next s :=
  congrArg Host.Outcome.next (if_neg hc)

theorem exec_passedSeen_of_awaiting (ha : s.startup.awaitsPassed = true) :
    exec .passedSeen s = .next (s.withVerdict .passed).endTestIfDone :=
  congrArg Host.Outcome.next (if_pos ha)

theorem exec_passedSeen_of_not_awaiting (ha : ¬ s.startup.awaitsPassed = true) : exec .passedSeen s = .next s :=
  congrArg Host.Outcome.next (if_neg ha)

theorem exec_pairWaitExpiry_of_awaiting (ha : s.startup.awaitsPassed = true) (hc : s.startup.checkOpen = false) :
    exec .pairWaitExpiry s = .next ((s.withVerdict .failed).raise .pairFault).endTestIfDone :=
  congrArg Host.Outcome.next (if_pos ⟨ha, hc⟩)

theorem exec_pairWaitExpiry_of_not_awaiting (ha : ¬ s.startup.awaitsPassed = true) : exec .pairWaitExpiry s = .next s :=
  congrArg Host.Outcome.next (if_neg fun h => ha h.1)

end Checking

/-- Settles O49: the end of a test, then each step of the handshake by what the test still waits for. -/
theorem pairHandshake : Obligations.PairHandshake := by
  unfold Obligations.PairHandshake
  intro s
  refine ⟨fun own => ⟨(s.finishTest own).profiles, ?_, finishTest_profile s own⟩, rfl, fun hn => ?_, fun h0 hu hc => ?_,
    fun h0 hu hv hp => ?_, fun h0 hu hv hc hp => ?_⟩
  · rw [finishTest_eq]
    cases own <;> rfl
  · refine exec_secondaryPresentAssert_of_not_checking ?_
    rw [checking_iff]
    rintro ⟨h0, hu, hc⟩
    simp [h0, hu, hc] at hn
  · have hcheck : s.startup.checking = true := (checking_iff _).mpr ⟨h0, hu, hc⟩
    intro found gone here
    rw [exec_secondaryPresentAssert_of_checking hcheck, exec_presentSeen_of_checking hcheck,
      exec_presenceWindowExpiry_of_checking hcheck]
    refine ⟨fun hp => ?_, fun own hp => ⟨fun hv => ?_, fun hv => ?_, fun hl => ?_⟩⟩
    · rw [recordPresence_of_not_swept (s := s.setPresLine true) hp, recordPresence_of_not_swept hp]
      exact ⟨rfl, rfl, fun hl => by rw [hl]; rfl, fun hl => by rw [hl]; rfl⟩
    · rw [recordPresence_of_waiting (s := s.setPresLine true) hv]
      exact ⟨rfl, rfl, fun hl => by rw [hl, if_pos rfl, recordPresence_of_waiting hv]; rfl⟩
    · rw [recordPresence_of_swept (s := s.setPresLine true) hu hp (.inr hv), recordPresence_of_swept hu hp (.inr hv)]
      exact ⟨rfl, rfl, fun hl => by rw [hl]; rfl⟩
    · rw [hl, if_neg Bool.false_ne_true, recordPresence_of_swept (p := .absent) hu hp (.inl nofun)]
      rfl
  · rw [exec_passedSeen_of_awaiting ((awaitsPassed_iff _).mpr ⟨h0, hu, hv, hp⟩)]
    refine ⟨fun h => congrArg Host.Outcome.next ?_, fun own hc hs => congrArg Host.Outcome.next ?_⟩
    · rcases h with hc | hs
      · exact endTestIfDone_of_not_settled (withVerdict_not_settled hc _)
      · exact endTestIfDone_of_not_swept (s := s.withVerdict .passed) hs
    · exact endTestIfDone_of_settled (s := s.withVerdict .passed) hu hs (withVerdict_settled hc nofun)
  · rw [exec_pairWaitExpiry_of_awaiting ((awaitsPassed_iff _).mpr ⟨h0, hu, hv, .inr hp⟩) hc]
    refine ⟨fun hs => congrArg Host.Outcome.next ?_, fun own hs => congrArg Host.Outcome.next ?_⟩
    · exact endTestIfDone_of_not_swept (s := (s.withVerdict .failed).raise .pairFault) hs
    · exact endTestIfDone_of_settled (s := (s.withVerdict .failed).raise .pairFault) hu hs (withVerdict_settled hc nofun)

/-! ### The unit state (R195, R201) -/

/-- What a step of a start-up test leaves of the unit state: it is kept, or the test ends. -/
inductive TestStep (s t : State) : Prop
  | kept (unit : t.startup.unitState = s.startup.unitState)
  | ended (starting : s.startup.unitState = .starting) (v : State) (own : MemoryResult) (finished : t = v.finishTest own)

/-- What an end of a start-up test leaves (R201). -/
theorem TestStep.ended_of_ne {s t : State} (h : TestStep s t) (hne : t.startup.unitState ≠ s.startup.unitState) :
    s.startup.unitState = .starting ∧ t.bench.flags.startupDone = true
      ∧ ((t.startup.unitState = .ready ∧ (t.startup.testCode = 0x01 ∨ t.startup.testCode = 0x81))
        ∨ (t.startup.unitState = .failed ∧ t.runs.queue = [] ∧ (∀ h, (t.profile h).publishPending = false)
          ∧ (t.startup.testCode = 0x02 ∨ t.startup.testCode = 0x03 ∨ t.startup.testCode = 0x82
            ∨ t.startup.testCode = 0x83))) := by
  cases h with
  | kept unit => exact absurd unit hne
  | ended starting v own finished =>
    subst finished
    have hcode : (v.finishTest own).startup.testCode = memoryCode own + 0x80
        ∨ (v.finishTest own).startup.testCode = memoryCode own := by
      rw [finishTest_eq]
      exact (ite_eq_or_eq (v.startup.verdict = .failed) 0x80 0).imp (congrArg _) (congrArg _)
    refine ⟨starting, rfl, ?_⟩
    cases own with
    | pass => exact .inl ⟨rfl, hcode.symm⟩
    | mapFault | queueFault =>
      refine .inr ⟨rfl, rfl, fun h => by rw [finishTest_profile]; rfl, ?_⟩
      rcases hcode with h | h <;> simp [h, memoryCode]

theorem testStep_endTestIfDone {s u : State} (hu : u.startup.unitState = s.startup.unitState) : TestStep s u.endTestIfDone := by
  unfold State.endTestIfDone
  split
  · split
    · rename_i hc
      exact .ended (hu ▸ hc.1) u _ rfl
    · exact .kept hu
  · exact .kept hu

/-- Each step of the handshake, where its condition holds, asks whether the test ends (R200). -/
theorem testStep_ite {s u v : State} {p : Prop} [Decidable p] (hu : u.startup.unitState = s.startup.unitState)
    (hv : v.startup.unitState = s.startup.unitState) : TestStep s (if p then u.endTestIfDone else v) := by
  split
  · exact testStep_endTestIfDone hu
  · exact .kept hv

theorem testStep_assertPresent (s : State) : TestStep s s.assertPresent := testStep_ite rfl rfl

theorem testStep_seePresent (s : State) : TestStep s s.seePresent := testStep_ite rfl rfl

theorem testStep_closePresence (s : State) : TestStep s s.closePresence := testStep_ite rfl rfl

theorem testStep_seePassed (s : State) : TestStep s s.seePassed := testStep_ite rfl rfl

theorem testStep_pairTimeout (s : State) : TestStep s s.pairTimeout := testStep_ite rfl rfl

theorem testStep_endSweep {s u : State} (hu : u.startup.unitState = s.startup.unitState) (k : Sweep) :
    TestStep s (u.endSweep k) := by
  unfold State.endSweep
  dsimp only
  split
  · exact .kept hu
  · exact .kept hu
  all_goals
    split
    · exact testStep_endTestIfDone hu
    all_goals exact .kept hu

theorem testStep_sweepStep (s : State) : TestStep s s.sweepStep := by
  rcases sweepStep_cases s with he | ⟨k, -, ⟨k', -, he⟩ | ⟨-, he⟩⟩
  · rw [he]; exact .kept rfl
  · rw [he]; exact .kept rfl
  · rw [he]; exact testStep_endSweep (s := s) (u := s.modifyCell ..) rfl k

theorem beginTest_unitState (s : State) : s.beginTest.startup.unitState = .starting := by
  cases hf : s.startup.memoryFault
  · rw [beginTest_of_no_fault hf]; rfl
  · rw [beginTest_of_fault hf]; rfl

/-- What a step of the link leaves of the unit state: it is kept, or a Self-Test begins (R202). -/
def UnitKeptOrBegun (i : Instr) (s t : State) : Prop :=
  t.startup.unitState = s.startup.unitState
    ∨ t.startup.unitState = .starting ∧ (WellFormed i = true → ∃ x, i = .selfTest x)

theorem Operation.unitKeptOrBegun {i : Instr} {s t : State} (ho : Operation i s t) (hl : i.onLink = true) :
    UnitKeptOrBegun i s t := by
  cases ho
  case link h =>
    cases h
    case cmdSelfTest hi => exact .inr ⟨beginTest_unitState s.clearedForTest, hi⟩
    all_goals exact .inl (by simp)
  case reply => exact .inl (by simp)
  case learning => exact .inl (by simp)
  all_goals cases hl

theorem UnitKeptOrBegun.trans {i : Instr} {s t u : State} (hst : UnitKeptOrBegun i s t) (htu : UnitKeptOrBegun i t u) :
    UnitKeptOrBegun i s u := by
  rcases htu with hkept | hbegun
  · rwa [UnitKeptOrBegun, hkept]
  · exact .inr hbegun

theorem exec_unitKeptOrBegun {i : Instr} {s t : State} (hl : i.onLink = true) (he : exec i s = .next t) :
    UnitKeptOrBegun i s t :=
  operations_keep (P := UnitKeptOrBegun i s) (fun ho hs => hs.trans (ho.unitKeptOrBegun hl)) (exec_operations he) (.inl rfl)

/-- Settles O22: by the row of the step; only those of a start-up test, power-on and Self-Test touch the unit state. -/
theorem unitStateChanges : Obligations.UnitStateChanges := by
  unfold Obligations.UnitStateChanges
  intro i s t hwf he hne
  by_cases hl : i.onLink = true
  · rcases exec_unitKeptOrBegun hl he with hkept | ⟨hstarting, hi⟩
    · exact absurd hkept hne
    · obtain ⟨x, rfl⟩ := hi hwf
      exact .inr (.inl ⟨x, rfl, hstarting⟩)
  · cases i
    case powerOnReset x => exact .inl ⟨x, rfl⟩
    case sweepStep => cases he; exact .inr (.inr ((testStep_sweepStep s).ended_of_ne hne))
    case secondaryPresentAssert => cases he; exact .inr (.inr ((testStep_assertPresent s).ended_of_ne hne))
    case presentSeen => cases he; exact .inr (.inr ((testStep_seePresent s).ended_of_ne hne))
    case presenceWindowExpiry => cases he; exact .inr (.inr ((testStep_closePresence s).ended_of_ne hne))
    case passedSeen => cases he; exact .inr (.inr ((testStep_seePassed s).ended_of_ne hne))
    case pairWaitExpiry => cases he; exact .inr (.inr ((testStep_pairTimeout s).ended_of_ne hne))
    case captureWord | indexEvent | indexTimerExpiry | runStart | learningTakeRecord | learningOperation | autoExclusion
        | ffRequest | ffOperation | ffReplyStrobe | memoryTestEnd | presentRelease | returnQueueRead | statusReadAcknowledge
        | streamMapItemRead => cases he; exact absurd (by simp) hne
    all_goals exact absurd rfl hl

end Sys2Proof.Machine
end

section
/-! The codes of the commands (12.5, R204), the step of the block, and the steps whose condition does not hold (log 1, log 2,
log 29). -/

namespace Sys2Proof.Machine

/-! ### Command codes -/

theorem code_lt (c : CmdCode) : c.code.toNat < 256 := by cases c <;> decide

/-- A word is read by its bits 7..0 alone (12.5, R204). -/
theorem ofWord_congr {v w : Word} (h : v.toNat % 256 = w.toNat % 256) : CmdCode.ofWord v = CmdCode.ofWord w := by
  unfold CmdCode.ofWord
  rw [h]

theorem code_of_ofWord {w : Word} {c : CmdCode} (h : CmdCode.ofWord w = some c) : w.toNat % 256 = c.code.toNat := by
  unfold CmdCode.ofWord at h
  split at h <;> cases h <;> assumption

/-- Settles O4: the table by evaluation, and a word by the word of the same bits 7..0 that is a code. -/
theorem commandCodes : Obligations.CommandCodes := by
  unfold Obligations.CommandCodes
  refine ⟨rfl, fun w c => ⟨code_of_ofWord, fun h => ?_⟩⟩
  have hword : w.toNat % 256 = c.code.toNat % 256 := by rw [h, Nat.mod_eq_of_lt (code_lt c)]
  rw [ofWord_congr hword, ofWord_code]

/-! ### The step of the block -/

theorem step_of_pending {c : Instr} {rest : List Instr} {s : State} (h : s.pending = c :: rest) :
    step s = exec c { s with pending := rest } := by
  unfold step
  rw [h]

/-- Settles O1: `step` on a queue that is not empty. -/
theorem stepRunsFrontCommand : Obligations.StepRunsFrontCommand := fun _ _ _ => step_of_pending

theorem step_of_nothing_waiting {s : State} (hq : s.pending = []) (hp : s.publishing = []) : step s = .next s := by
  unfold step State.publishNext
  rw [hq, hp]

/-! ### Steps whose condition does not hold -/

section Unmet

variable {s : State}

theorem timerExpiry_of_unmet (h : s.index.timer = none ∨ s.runs.active = none) : s.timerExpiry = s := by
  refine if_neg ?_
  rcases h with h | h <;> simp [h]

theorem startRun_of_unmet (h : s.runs.active.isSome = true ∨ s.runs.queue = [] ∨ 8 ≤ s.runs.results.length
    ∨ s.startup.unitState ≠ .ready ∨ s.settings.feedForward = false ∨ s.sweep.isSome = true) : s.startRun = s := by
  refine if_neg ?_
  rw [State.canStart]
  rcases h with h | h | h | h | h | h
  · simp [Option.isSome_iff_ne_none.mp h]
  · simp [h]
  · simp [show ¬ s.runs.results.length < Config.resultQueueDepth from Nat.not_lt.mpr h]
  · simp [h]
  · simp [h]
  · simp [Option.isSome_iff_ne_none.mp h]

theorem takeRecord_of_unmet (h : s.held.isSome = true ∨ s.capture.fifo = []) : s.takeRecord = s := by
  unfold State.takeRecord
  rcases h with h | h
  · exact if_pos h
  · rw [h]; exact ite_self _

theorem ffWaiting_of_forming (h : ∃ q, s.ff.server = .forming q) : s.ffWaiting = true := by
  obtain ⟨q, hq⟩ := h
  rw [State.ffWaiting, hq]

theorem grantLearning_of_unmet (h : s.held = none ∨ ∃ q, s.ff.server = .forming q) : s.grantLearning = s := by
  unfold State.grantLearning
  rcases h with h | h
  · rw [h]; exact ite_self _
  · exact if_pos (ffWaiting_of_forming h)

theorem takeAutoExclusion_of_none (h : s.autoRequests = []) : s.takeAutoExclusion = s := by
  unfold State.takeAutoExclusion
  rw [h]
  rfl

theorem sweepStep_of_unmet (h : s.sweep = none ∨ (∃ q, s.ff.server = .forming q) ∨ s.held.isSome = true ∨ s.ReadWaits) :
    s.sweepStep = s := by
  unfold State.sweepStep
  split
  · rfl
  · rename_i k hk
    refine if_pos ?_
    rw [State.othersWaiting]
    rcases h with h | h | h | h
    · rw [h] at hk; cases hk
    · simp [ffWaiting_of_forming h]
    · simp [h]
    · simp [(streamReadWaiting_iff s).mpr h]

theorem grantStreamRead_of_unmet (h : (∀ left crc, s.bench.stream ≠ some { kind := .map left crc, words := [] })
    ∨ (∃ q, s.ff.server = .forming q) ∨ s.held.isSome = true) : s.grantStreamRead = s := by
  unfold State.grantStreamRead
  rcases h with h | h | h
  · rw [completeStreamRead_of_no_read h]; exact ite_self _
  · exact if_pos (by simp [ffWaiting_of_forming h])
  · exact if_pos (by simp [h])

theorem endMemoryTest_of_unmet (h : s.startup.unitState ≠ .starting ∨ s.startup.phase ≠ .memoryTest) (r : MemoryResult) :
    s.endMemoryTest r = s := if_neg (by rwa [not_and_or])

theorem not_checking_of_unmet (h : s.startup.unitNo ≠ 0 ∨ s.startup.unitState ≠ .starting ∨ s.startup.checkOpen = false) :
    ¬ s.startup.checking = true := by
  rw [checking_iff]
  rintro ⟨h0, hu, hc⟩
  simp [h0, hu, hc] at h

theorem not_awaitsPassed_of_unmet (h : s.startup.unitNo ≠ 0 ∨ s.startup.unitState ≠ .starting ∨ s.startup.verdict ≠ .waiting
    ∨ (s.startup.checkOpen = false ∧ s.startup.presence ≠ .present)) : ¬ s.startup.awaitsPassed = true := by
  rw [awaitsPassed_iff]
  rintro ⟨h0, hu, hv, hc | hp⟩
  · simp [h0, hu, hv, hc] at h
  · simp [h0, hu, hv, hp] at h

end Unmet

/-- Settles O2: condition by condition. -/
theorem stepsWithoutTheirCondition : Obligations.StepsWithoutTheirCondition := by
  unfold Obligations.StepsWithoutTheirCondition
  intro s
  refine ⟨step_of_nothing_waiting, fun h => congrArg Host.Outcome.next (timerExpiry_of_unmet h),
    fun h => congrArg Host.Outcome.next (startRun_of_unmet h), fun h => congrArg Host.Outcome.next (takeRecord_of_unmet h),
    fun h => congrArg Host.Outcome.next (grantLearning_of_unmet h),
    fun h => congrArg Host.Outcome.next (takeAutoExclusion_of_none h),
    fun h => congrArg Host.Outcome.next (formReply_of_not_forming h),
    fun h => congrArg Host.Outcome.next (sweepStep_of_unmet h),
    fun h => congrArg Host.Outcome.next (grantStreamRead_of_unmet h),
    fun r h => congrArg Host.Outcome.next (endMemoryTest_of_unmet h r), fun h => ?_, fun h => ?_⟩
  · have hc := not_checking_of_unmet h
    exact ⟨exec_presentSeen_of_not_checking hc, exec_presenceWindowExpiry_of_not_checking hc⟩
  · have ha := not_awaitsPassed_of_unmet h
    exact ⟨exec_passedSeen_of_not_awaiting ha, exec_pairWaitExpiry_of_not_awaiting ha⟩

end Sys2Proof.Machine
end
